-- ==== Sys2Proof/Word.lean ====
section
/-! DEFINITION. The word types of the module: 64-bit words, bytes, 512-byte rows, and the names that the spec
numbers (sites, regions, dies, ports, placements). -/

namespace Sys2Proof

/-- A 64-bit register word (R98, R891). -/
abbrev Word := BitVec 64
/-- A byte. -/
abbrev Byte := BitVec 8
/-- A scratchpad or HBM row: 512 bytes, byte 0 in bits 7:0 (R100, R226). -/
abbrev Row := BitVec 4096
/-- Module time in T ticks of 10 ns (R603). -/
abbrev Tick := BitVec 64
/-- A physical site (X, Y) as Y * 160 + X (R16, R330). -/
abbrev Site := Fin 12800
/-- A cluster of the module: region * 25 + cluster number (R16, R17). -/
abbrev Cluster := Fin 800
/-- A region RG00 to RG31 (R16). -/
abbrev Region := Fin 32
/-- A die 0 to 7 (R16). -/
abbrev Die := Fin 8
/-- A host-link port 0 to 31 (R494). -/
abbrev Port := Fin 32
/-- A resident placement number 0 to 7 (R84). -/
abbrev Plc := Fin 8
/-- A 14-bit endpoint ID (R329). -/
abbrev Epid := BitVec 14
/-- A port tile: stack * 16 + tile number (R444). -/
abbrev Tile := Fin 512
/-- An M-core as MAT_FEEDMAP numbers it (R907). -/
abbrev MNum := Fin 64

/-- A sparse table: keys strictly rising, and no entry equal to the value an unlisted key reads as. -/
abbrev Tbl (α : Type) := List (Nat × α)

/-- Bits hi down to lo of a number, as the spec's field maps write them. -/
def bits (w hi lo : Nat) : Nat := (w >>> lo) % 2 ^ (hi + 1 - lo)

/-- One bit of a number. -/
def bit (w i : Nat) : Bool := (w >>> i) % 2 == 1

/-- The number 1 for true and 0 for false. -/
def ofBool (b : Bool) : Nat := if b then 1 else 0

/-- A value placed at bit lo of a word. -/
def at_ (v lo : Nat) : Nat := v <<< lo

end Sys2Proof
end

