-- ==== Sys2Proof/Syntax/Operands.lean ====
section
/-! DEFINITION. What the commands of Syntax.lean carry: slot words, transit damage, link flits, vote runs,
firmware images, and the outcomes that only the world outside the model decides. -/

namespace Sys2Proof

/-- The profile of a core (R95). -/
inductive Profile where
  | s | v | m
  deriving DecidableEq, Repr

/-- Unit kinds, in the order of BRG_INV (R683). -/
inductive UnitKind where
  | sCore | vCore | mCore | portTile | spurTile | serviceTile | edgeTile
  deriving DecidableEq, Repr

/-- An error that strikes the arithmetic of a slot (R691, R693): the element that it strikes, the bits that it flips in the exact
result (an integer, or the significand before rounding), and whether it also upsets the rounding. -/
structure Upset where
  elem     : Nat
  flips    : Nat
  rounding : Bool
  deriving DecidableEq, Repr

/-- An error that strikes a cell of the multiply array (R189, R691): its physical row and column, and what it adds to the partial sum in
units of the lowest product bit. -/
structure CellUpset where
  row : Fin 264
  col : Fin 260
  add : Int
  deriving DecidableEq, Repr

/-- A contribution that reaches its tally slot (R200): the M-core, and the error of a cell, if one strikes it. -/
structure TallyInput where
  site  : Site
  upset : Option CellUpset
  deriving DecidableEq, Repr

/-- A segment by its placement and its number there. -/
structure SegName where
  plc : Plc
  seg : Fin 8192
  deriving DecidableEq, Repr

/-- A credit beat as it arrives (R297): its credit entries, and the errors of its symbols. -/
structure CreditBits where
  entries : BitVec 1024
  errs    : List (Fin 32 × Nat)
  deriving DecidableEq, Repr

/-- How a router makes a hop (R356, R360): whether both productive outputs are free, so that the packet alternates between them, and whether
the head's codeword 0 is uncorrectable there. -/
structure HopMade where
  both   : Bool
  headUe : Bool
  deriving DecidableEq, Repr

/-- A segment of a micro-quiz as it runs (R721, R723): the K-cycle of the T tick in which it starts, the answers of the fixed part's tests in
it, and the result of the seeded part. -/
structure QuizRun where
  offset : Fin 16
  fixed  : Word
  seeded : Word
  deriving DecidableEq, Repr

/-- What leaves regulation in service (R47, R876): a region's rail, its clock spine, or a rail of no region. -/
inductive RailLoss where
  | region (r : Region)
  | spine (r : Region)
  | other
  deriving DecidableEq, Repr

/-- Special states of a tally (R195). -/
inductive Special where
  | fin | pinf | ninf | nan
  deriving DecidableEq, Repr

/-- A tally (R195): a two's complement integer, a window exponent, the outside-window flag and the special state. -/
structure Tally where
  q  : Int
  w  : Nat
  f  : Bool
  sp : Special
  deriving DecidableEq, Repr

/-- Where a slot command issues: the core's physical site, the slot of its bundle (R109), whether further
slots of the same bundle follow before it issues (R96), and the error that strikes its arithmetic, if any. -/
structure Issue where
  u    : Site
  slot : BitVec 3
  more : Bool
  upset : Option Upset := none
  deriving DecidableEq, Repr

/-- A row with its poison mark and its transit damage, one bit per codeword (R226, R227, R371). -/
structure PRow where
  data   : Row
  poison : BitVec 32
  deriving DecidableEq, Repr

/-- What happened to a packet on its way (R360, R369, R371): the head's codeword 0 is uncorrectable, the CRC does
not match, or payload codewords are uncorrectable. -/
structure Damage where
  headUe    : Bool
  crcBad    : Bool
  payloadUe : Bool
  corrected : Nat
  deriving DecidableEq, Repr

/-- Directions of a router output (R282, R356). -/
inductive Dir where
  | north | east | south | west | edge
  deriving DecidableEq, Repr

/-- A packet as the link carries it in from the host adapter (R354, R355, R521): its head flit and its payload rows. -/
structure HostPacket where
  head : BitVec 1024
  rows : List PRow
  deriving DecidableEq, Repr

/-- A sequenced or unsequenced link flit, decoded (R509 to R511); `fec` names the lane codewords that its decoding found in error, each
by its lane (true for the upper) and whether it was uncorrectable (R501). -/
structure Flit where
  seq       : BitVec 12
  ackValid  : Bool
  ack       : BitVec 12
  credits   : BitVec 10
  crcOk     : Bool
  headerOk  : Bool
  fec       : List (Bool × Bool)
  payloadUe : Bool
  packets   : List HostPacket
  deriving DecidableEq, Repr

/-- A firmware image as the host window holds it (R839): its header block of 4,096 bytes and the rows of its body; `readOk` is false where
the host read fails or returns poisoned rows (R841). -/
structure FwImage where
  readOk : Bool
  head   : BitVec 32768
  body   : List Row
  deriving DecidableEq, Repr

/-- Why a root PLL lost its source (R581, R877). -/
inductive SourceCause where
  | missingEdges | frequency | lossOfLock
  deriving DecidableEq, Repr

/-- Why a port retrains (R506). -/
inductive RetrainCause where
  | lockLoss | uncorrectable | replayLimit | request
  deriving DecidableEq, Repr

/-- What starts a recovery (R750, R778): a detector fault (its code, unit and detail), no progress, a fenced port, or a
planned move. -/
inductive RecCause where
  | detector (code : Byte) (u : Site)
  | port (n : Port)
  | planned (u : Site)
  | referenceLoss
  deriving DecidableEq, Repr

/-- An operation that a vote run performs (R700, R701): when, in T ticks after its restart, by which bundle and slot and at which issue
offset from the acceptance of the descriptor's first sample; its result and its checker's values, a row of tallies with its check tally or
the two residues. -/
structure VoteOp where
  at_    : Nat
  pc     : Nat
  slot   : Nat
  offset : Nat
  rows   : List Row
  lanes  : List Tally
  chk    : Tally
  res    : Nat × Nat
  deriving DecidableEq, Repr

/-- What the vote runs on a unit and on its substitute show (R700), the cells of the array whose one-hot pattern the locate quiz sees come out
wrong (R194), and whether the executor carries the step out. -/
structure VoteResult where
  unit   : List VoteOp
  subst  : List VoteOp
  locate : List (Fin 264 × Fin 260)
  ok     : Bool
  deriving DecidableEq, Repr

/-- What an exam finds (R808 to R810): failed pins by tile, channel and pin, failed wires by edge tile, link and wire. -/
structure ExamFindings where
  complete    : Bool
  firstCode   : Byte
  diesFailed  : BitVec 8
  regsFailed  : BitVec 32
  moduleFail  : Bool
  lanesFailed : Word
  connFailed  : BitVec 2
  unitsFailed : List Site
  unitsLow    : List Site
  pinsFailed  : List (Tile × Bool × Nat)
  wiresFailed : List (Site × Bool × Nat)
  deriving DecidableEq, Repr

/-- What a two-wire transaction says about its PEC byte (R871). -/
inductive Pec where
  | absent | good | bad
  deriving DecidableEq, Repr

/-- Inbound management frames by what the port does with them (R880). -/
inductive MgtFrame where
  | arp (own : Bool)
  | ndp (own : Bool)
  | echo (own : Bool)
  | other
  deriving DecidableEq, Repr

end Sys2Proof
end

