-- ==== Sys2Proof/Syntax/Image.lean ====
section
/-! DEFINITION. A timetable image as the loader reads it (R62, R324, R548, R925, R927): units, streams and their paths, the host section,
the loam directory, the static report and the verification certificate. The spec gives the parts and no byte layout, so a LOAD
carries the parts (assumption 31). -/

namespace Sys2Proof

/-- A row that a timetable image defines, with its mark (R759). -/
structure ImgRow where
  row   : Nat
  data  : Row
  fixed : Bool
  deriving DecidableEq, Repr

/-- Where the rows of a non-stream input come from (R66, R467): a DMA read of n rows, a gather of r request rows, s sectors and o output
rows that the core of a site requests, or packets of a core of the module. -/
inductive Access where
  | dma (tile : Tile) (rows : Nat)
  | gather (tile : Tile) (by_ : Site) (requestRows sectors outRows : Nat)
  | packet (from_ : Site)
  deriving DecidableEq, Repr

/-- A non-stream input of a unit with its declared bound (R65). -/
structure ImgBound where
  counter : BitVec 6
  bound   : Nat
  access  : Access
  deriving DecidableEq, Repr

/-- One guarded range of strict rows (R258). -/
structure Guard where
  counter : BitVec 6
  base    : Nat
  count   : Nat
  deriving DecidableEq, Repr

/-- The source of a segment: a core's output port or a stream switch's output slot (R286). -/
inductive SegSrc where
  | port (u : Site) (p : BitVec 3)
  | slot (c : Cluster) (o : BitVec 4)
  deriving DecidableEq, Repr

/-- The queue of a segment: an input ring of a core, or a data or token queue of a stream switch (R286). -/
inductive SegDst where
  | ring (u : Site) (p : BitVec 3) (base n : Nat) (counter : BitVec 6)
  | data (c : Cluster) (q : BitVec 4)
  | token (c : Cluster) (q : BitVec 3)
  deriving DecidableEq, Repr

/-- A hop of a path: a router and the output by which a beat leaves it (R282): 0 north, 1 east, 2 south, 3 west, 4 unit, 5 switch, 6 and
7 the edge links. -/
structure Hop where
  site : Site
  out  : Fin 8
  deriving DecidableEq, Repr

/-- A stream segment of an image (R286): its hops from the source's router to the queue's; the frame cycles that it reserves on its first
hop, and for credits on the first hop back; the hops after which a slack stage stands (R76); the least interval between its rows,
the longest that a row waits in its queue, and the batch that the program holds (R299). -/
structure ImgSeg where
  id       : Nat
  src      : SegSrc
  dst      : SegDst
  path     : List Hop
  frames   : List (Fin 16)
  credits  : List (Fin 16)
  slackAt  : List Nat
  interval : Nat
  wait     : Nat
  batch    : Nat
  deriving DecidableEq, Repr

/-- The alternate timetable of an M-core stage for the region's other matrix cluster (R83): its program, the paths of the segments that
it changes, and its figures in the static report. -/
structure Variant where
  site    : Site
  start   : Nat
  bundles : List (Nat × BitVec 512)
  segs    : List ImgSeg
  offset  : Nat
  latency : Nat
  deriving DecidableEq, Repr

/-- One unit of a timetable image (R324): its program, rows and bindings; the counters that hall passes will name; its free periods within
the cadence (R57); and, of an M-core, the owner of the check column by A-cycle range, true for the matrix-vector path. -/
structure ImgUnit where
  logical   : Site
  profile   : Profile
  pinned    : Option Site
  start     : Nat
  bundles   : List (Nat × BitVec 512)
  rows      : List ImgRow
  rowsUsed  : Nat
  isInput   : Bool
  isOutput  : Bool
  cadence   : Nat
  chans     : List (Nat × Word)
  guards    : List Guard
  bounds    : List ImgBound
  passes    : List (BitVec 6)
  free      : List (Nat × Nat)
  owners    : List (Bool × Nat × Nat)
  variant   : Option Variant
  deriving DecidableEq, Repr

/-- How a write of rows is kept from landing before the last read of their previous use (R256): space that a WAITC of the producer at a
bundle waits for, the credits of a segment, or the cycles that a segment reserves. -/
inductive Release where
  | space (producer : Site) (bundle : Nat) (counter : BitVec 6)
  | credit (seg : Nat)
  | reserved (seg : Nat)
  deriving DecidableEq, Repr

/-- A write that a WAITC's target counts: its rows, and how it is kept back. -/
structure ClaimWrite where
  base    : Nat
  rows    : Nat
  release : Release
  deriving DecidableEq, Repr

/-- One claim of the verification certificate (R927): a read of rows that another party fills, with the bundle that covers it, its counter
or channel, and its target; a block closed by SIGCHK, with its first result-carrying mesh operation; a fixed row. -/
inductive Claim where
  | read (u : Site) (bundle wait : Nat) (channel : Bool) (counter : BitVec 6) (target : Nat) (writes : List ClaimWrite)
  | block (u : Site) (first sigchk distance : Nat)
  | fixed (u : Site) (row : Nat)
  deriving DecidableEq, Repr

/-- A declared share of a port tile (R466): parts per million of its sector times, and outstanding requests (R464). -/
structure ImgChannel where
  tile        : Tile
  occupancy   : Nat
  outstanding : Nat
  deriving DecidableEq, Repr

/-- One intake entry of the host section (R548). -/
structure Intake where
  dst      : Epid
  counter  : BitVec 6
  base     : Nat
  rows     : Nat
  offset   : Nat
  bytes    : Nat
  deriving DecidableEq, Repr

/-- The host section (R548). -/
structure HostSection where
  inBytes  : Nat
  outBytes : Nat
  nMax     : Nat
  granule  : Nat
  lead     : Bool
  intake   : List Intake
  deriving DecidableEq, Repr

/-- A loam directory entry (R925). -/
structure LoamEntry where
  unit   : Epid
  rows   : Nat
  stackA : Fin 32
  offA   : Nat
  maskA  : BitVec 16
  stackB : Fin 32
  offB   : Nat
  maskB  : BitVec 16
  crcA   : BitVec 32
  crcB   : BitVec 32
  deriving DecidableEq, Repr

/-! ## The static report (R62) -/

/-- The figures of a stage: its sites, their kind and operation class, offset, cadence and latency in K-cycles (offset and latency in
A-cycles too), samples per second, and the pinned cores (R86). -/
structure StageReport where
  sites      : List Site
  kind       : UnitKind
  cls        : Nat
  offset     : Nat
  cadence    : Nat
  latency    : Nat
  offsetA    : Nat
  latencyA   : Nat
  throughput : Nat
  pinned     : List Site
  deriving DecidableEq, Repr

/-- The figures of a unit: rows and bytes of instruction store used, free periods, the check column's owners, and the bound and slack of
each non-stream input by counter. -/
structure UnitReport where
  unit   : Site
  rows   : Nat
  istore : Nat
  free   : List (Nat × Nat)
  owners : List (Bool × Nat × Nat)
  bounds : List (BitVec 6 × Nat × Nat)
  deriving DecidableEq, Repr

/-- The figures of a path and of its queue: hops, slack stages and their default setting, capacity and high-water mark. -/
structure PathReport where
  seg     : Nat
  hops    : Nat
  slacks  : Nat
  setting : Nat
  cap     : Nat
  mark    : Nat
  deriving DecidableEq, Repr

/-- The figures of a link, named by site * 8 + output: its frame mask, and its reserved and expected packet shares in percent. -/
structure LinkReport where
  link     : Nat
  mask     : BitVec 16
  reserved : Nat
  packets  : Nat
  deriving DecidableEq, Repr

/-- The static report of a placement (R62); `units` counts the units used by kind, `extent` the enabled cores needed by region and
kind, `span` is the longest without progress (R316). -/
structure StaticReport where
  number      : Nat
  id          : Word
  cadence     : Nat
  fill        : Nat
  steady      : Nat
  maxInFlight : Nat
  reproducible : Bool
  units       : List (UnitKind × Nat)
  extent      : List (Nat × UnitKind × Nat)
  stages      : List StageReport
  perUnit     : List UnitReport
  paths       : List PathReport
  links       : List LinkReport
  channels    : List (Tile × Nat)
  span        : Nat
  deriving DecidableEq, Repr

/-- A timetable image (R324); `sched` holds link schedule entries of R282 by (site * 8 + output) * 16 + frame cycle, `chanPeaks` the
message channels' figures of R440. -/
structure Image where
  stampedId   : Word
  report      : StaticReport
  claims      : List Claim
  units       : List ImgUnit
  segs        : List ImgSeg
  sched       : List (Nat × BitVec 16)
  dataQ       : List (Cluster × BitVec 4 × BitVec 32)
  tokenQ      : List (Cluster × BitVec 3 × BitVec 16)
  elements    : List (Cluster × BitVec 3 × BitVec 64)
  chanPeaks   : List (Nat × Nat × Nat)
  channels    : List ImgChannel
  host        : Option HostSection
  loam        : List LoamEntry
  deriving DecidableEq, Repr

end Sys2Proof
end

