-- ==== Sys2Proof/Syntax.lean ====
section
/-! DEFINITION. The commands of the module: one constructor for each row of the spec's table of steps. A slot command
carries the word of its slot below the opcode, as R109 to R158 lay it out; a packet command names the packet in flight
that arrives, with its damage; an event carries only what the world outside decides. -/

namespace Sys2Proof

/-- The commands. Each names the rule that governs its row. -/
inductive Instr where
  /-- R115: Integer slot writes A + B modulo 2^64 with latency 1. -/
  | add (a : Issue) (w : BitVec 56)
  /-- R115: Integer slot writes A − B modulo 2^64 with latency 1. -/
  | sub (a : Issue) (w : BitVec 56)
  /-- R115: Integer slot writes the bitwise AND of A and B. -/
  | and_ (a : Issue) (w : BitVec 56)
  /-- R115: Integer slot writes the bitwise OR of A and B. -/
  | or_ (a : Issue) (w : BitVec 56)
  /-- R115: Integer slot writes the bitwise XOR of A and B. -/
  | xor_ (a : Issue) (w : BitVec 56)
  /-- R115: Integer slot writes A shifted left by B mod 64. -/
  | shl (a : Issue) (w : BitVec 56)
  /-- R115: Integer slot writes A shifted right logically by B mod 64. -/
  | shr (a : Issue) (w : BitVec 56)
  /-- R115: Integer slot writes A shifted right arithmetically by B mod 64. -/
  | sar (a : Issue) (w : BitVec 56)
  /-- R115: Integer slot writes 1 if A equals B, else 0. -/
  | cmpeq (a : Issue) (w : BitVec 56)
  /-- R115: Integer slot writes 1 if A is below B as signed values, else 0. -/
  | cmplt (a : Issue) (w : BitVec 56)
  /-- R115: Integer slot writes 1 if A is below B as unsigned values, else 0. -/
  | cmpltu (a : Issue) (w : BitVec 56)
  /-- R115: Integer slot writes A if the destination's value at issue is non-zero, else B. -/
  | sel (a : Issue) (w : BitVec 56)
  /-- R115: Integer slot writes the signed minimum of A and B. -/
  | min_ (a : Issue) (w : BitVec 56)
  /-- R115: Integer slot writes the signed maximum of A and B. -/
  | max_ (a : Issue) (w : BitVec 56)
  /-- R115: Integer slot writes bits 63:0 of A × B with latency 3. -/
  | mul (a : Issue) (w : BitVec 56)
  /-- R115: Integer slot writes bits 127:64 of the unsigned product A × B with latency 3. -/
  | mulhu (a : Issue) (w : BitVec 56)
  /-- R116: Integer slot writes mix(A XOR B) with latency 2. -/
  | hash_ (a : Issue) (w : BitVec 56)
  /-- R115: Integer slot writes the sign-extended immediate. -/
  | movi (a : Issue) (w : BitVec 56)
  /-- R115: Integer slot writes A shifted left by 24, ORed with the zero-extended immediate. -/
  | orsh (a : Issue) (w : BitVec 56)
  /-- R115: Integer slot reads an arrival counter, zero-extended, into a register. -/
  | rdc (a : Issue) (w : BitVec 56)
  /-- R117: Row slot loads a scratchpad row into a window. -/
  | ldrow (a : Issue) (w : BitVec 56)
  /-- R117: Row slot stores a window into a scratchpad row, visible 3 K-cycles later. -/
  | strow (a : Issue) (w : BitVec 56)
  /-- R117: Row slot clears a window to zero. -/
  | clrw (a : Issue) (w : BitVec 56)
  /-- R121: Control slot transfers control to the target, costing the mispredict delay when its hint is 0. -/
  | jmp (a : Issue) (w : BitVec 56)
  /-- R121: Control slot branches if the condition register is zero, following its hint for timing. -/
  | beqz (a : Issue) (w : BitVec 56)
  /-- R121: Control slot branches if the condition register is non-zero. -/
  | bnez (a : Issue) (w : BitVec 56)
  /-- R121: Control slot branches if the condition register is negative. -/
  | bltz (a : Issue) (w : BitVec 56)
  /-- R121: Control slot branches if the condition register is not negative. -/
  | bgez (a : Issue) (w : BitVec 56)
  /-- R119: Control slot writes the link register with bundle address + 1 and transfers control. -/
  | jal (a : Issue) (w : BitVec 56)
  /-- R122: Control slot jumps to the address held in a register, always at the mispredict delay. -/
  | jr (a : Issue) (w : BitVec 56)
  /-- R123: Control slot holds its bundle until an arrival counter reaches the target, and releases input ring rows. -/
  | waitc (a : Issue) (w : BitVec 56)
  /-- R124: Control slot holds its bundle until a masked status word meets its compare condition. -/
  | waits (a : Issue) (w : BitVec 56)
  /-- R125: A waiting bundle issues in the first cycle in which its counter or status condition holds. -/
  | waitConditionMet (u : Site) (cycle : Nat)
  /-- R107: A bundle held by the scoreboard, stream credits or a full matrix queue issues once the cause clears. -/
  | stallRelease (u : Site) (cycle : Nat)
  /-- R130: Control slot sends rows to another endpoint as WRITE or GATHER packets. -/
  | send (a : Issue) (w : BitVec 56)
  /-- R407: MSG send checks the channel word, takes a sequence and enters the outbound engine. -/
  | msgSend (a : Issue) (w : BitVec 56)
  /-- R425: MSG release advances a receive channel's read offset and lowers its rows in use. -/
  | msgRelease (a : Issue) (w : BitVec 56)
  /-- R430: MSG close puts a receive channel in the closed state. -/
  | msgClose (a : Issue) (w : BitVec 56)
  /-- R412: MSG resume sets a send channel to resuming, becoming ready when in flight reaches 0. -/
  | msgResume (a : Issue) (w : BitVec 56)
  /-- R459: DMA with direction 00 sends one DMA_READ request for HBM rows into local rows. -/
  | dmaHbmToRows (a : Issue) (w : BitVec 56)
  /-- R460: DMA with direction 01 sends local rows to HBM as DMA_WRITE packets. -/
  | dmaRowsToHbm (a : Issue) (w : BitVec 56)
  /-- R135: Control slot hands rows to a stream output port, taking one credit per row. -/
  | spush (a : Issue) (w : BitVec 56)
  /-- R129: Control slot compares the accumulated signature with its expected value and clears it. -/
  | sigchk (a : Issue) (w : BitVec 56)
  /-- R128: Control slot stops issue after its bundle and closes the core's receive channels. -/
  | halt (a : Issue) (w : BitVec 56)
  /-- R145: Vector ALU writes A + B per element. -/
  | vadd (a : Issue) (w : BitVec 56)
  /-- R145: Vector ALU writes A − B per element. -/
  | vsub (a : Issue) (w : BitVec 56)
  /-- R145: Vector ALU writes A × B per element. -/
  | vmul (a : Issue) (w : BitVec 56)
  /-- R145: Vector ALU writes A × B + C per element with one rounding. -/
  | vfma (a : Issue) (w : BitVec 56)
  /-- R145: Vector ALU writes the per-element maximum. -/
  | vmax (a : Issue) (w : BitVec 56)
  /-- R145: Vector ALU writes the per-element minimum. -/
  | vmin (a : Issue) (w : BitVec 56)
  /-- R145: Vector ALU writes the per-element bitwise AND. -/
  | vand (a : Issue) (w : BitVec 56)
  /-- R145: Vector ALU writes the per-element bitwise OR. -/
  | vor (a : Issue) (w : BitVec 56)
  /-- R145: Vector ALU writes the per-element bitwise XOR. -/
  | vxor (a : Issue) (w : BitVec 56)
  /-- R145: Vector ALU writes all ones where A < B, else 0. -/
  | vcmplt (a : Issue) (w : BitVec 56)
  /-- R145: Vector ALU writes all ones where A = B, else 0. -/
  | vcmpeq (a : Issue) (w : BitVec 56)
  /-- R145: Vector ALU writes A where C is non-zero, else B. -/
  | vsel (a : Issue) (w : BitVec 56)
  /-- R145: Vector ALU shifts integer elements left. -/
  | vshl (a : Issue) (w : BitVec 56)
  /-- R145: Vector ALU shifts integer elements right arithmetically. -/
  | vshr (a : Issue) (w : BitVec 56)
  /-- R150: Vector row move loads a row into a vector register pair. -/
  | vld (a : Issue) (w : BitVec 56)
  /-- R150: Vector row move stores a vector register pair into a row. -/
  | vst (a : Issue) (w : BitVec 56)
  /-- R150: Vector row move broadcasts a general register into every element. -/
  | vbc (a : Issue) (w : BitVec 56)
  /-- R150: Vector row move extracts one element into a general register. -/
  | vext (a : Issue) (w : BitVec 56)
  /-- R152: Reduction slot sums a register's elements in the fixed pairwise order. -/
  | vrsum (a : Issue) (w : BitVec 56)
  /-- R151: Reduction slot writes the maximum element of a register. -/
  | vrmax (a : Issue) (w : BitVec 56)
  /-- R151: Reduction slot writes the minimum element of a register. -/
  | vrmin (a : Issue) (w : BitVec 56)
  /-- R153: Conversion slot converts elements between types with optional power-of-two scale. -/
  | vcvt (a : Issue) (w : BitVec 56)
  /-- R154: Conversion slot computes 2^x in FP32. -/
  | vexp2 (a : Issue) (w : BitVec 56)
  /-- R154: Conversion slot computes log2 x in FP32. -/
  | vlog2 (a : Issue) (w : BitVec 56)
  /-- R154: Conversion slot computes 1/x in FP32. -/
  | vrcp (a : Issue) (w : BitVec 56)
  /-- R154: Conversion slot computes 1/sqrt x in FP32. -/
  | vrsqrt (a : Issue) (w : BitVec 56)
  /-- R182: Feeder command queues vectors from scratchpad row groups into the feeder queues. -/
  | feed (a : Issue) (w : BitVec 88)
  /-- R157: Feeder command ends the current FEED after the vector in flight. -/
  | fstop (a : Issue) (w : BitVec 88)
  /-- R179: Array command loads a weight tile into the shadow buffer and computes its row sums. -/
  | ldw (a : Issue) (w : BitVec 56)
  /-- R180: Array command marks the shadow tile to become active at the next PASS. -/
  | swap (a : Issue) (w : BitVec 56)
  /-- R185: Array command passes feeder vectors through the active tile into tally slots. -/
  | pass (a : Issue) (w : BitVec 56)
  /-- R188: Array command clears tally slots to EMPTY once their contributions are final. -/
  | tclr (a : Issue) (w : BitVec 56)
  /-- R213: Matrix-vector command multiplies a stored matrix by one vector into matrix-vector slots. -/
  | mvm (a : Issue) (w : BitVec 88)
  /-- R209: Drain command rounds tally slots into output rows or a stream port. -/
  | drain (a : Issue) (w : BitVec 56)
  /-- R159: Check command hands the check column to the array or the matrix-vector path. -/
  | chkown (a : Issue) (w : BitVec 56)
  /-- R221: Check command accumulates the column-sum check of the preceding MVM. -/
  | chkcs (a : Issue) (w : BitVec 56)
  /-- R183: The feeder reads a row group once every queue has room for its vectors. -/
  | feedRowGroupRead (u : Site)
  /-- R181: An LDW begins once the buffer released by a SWAP becomes free. -/
  | ldwBegin (u : Site)
  /-- R180: A PASS begins once its SWAP's LDW is complete. -/
  | passBegin (u : Site)
  /-- R185: A vector, or a bubble if it is not ready, enters logical row 0 of the array and is checked for rate class. -/
  | vectorEntry (u : Site)
  /-- R200: A contribution reaches its tally slot and is added under the window rules. -/
  | addToTally (x : TallyInput)
  /-- R210: The drain takes a slot whose tallies are final, compares and rounds it, and writes its rows. -/
  | drainVector (u : Site)
  /-- R214: An MVM begins once its slots are EMPTY and the previous CHKCS has issued its last read. -/
  | mvmBegin (u : Site)
  /-- R221: At the later of the MVM and CHKCS completions the sums are compared and the slots' drain is released. -/
  | chkcsTest (u : Site)
  /-- R224: The check column changes owner 1 A-cycle after the current owner's queued work completes. -/
  | chkownHandover (u : Site)
  /-- R164: A program fault halts the core, and the proctor stops and reports its placement. -/
  | programFault (u : Site)
  /-- R239: The scratchpad scrubber reads the next row in an idle cycle and writes back a corrected row. -/
  | scrub (u : Site) (otherWrite : Bool)
  /-- R292: A row whose fourth beat has arrived is written into its input ring or queue and counted. -/
  | streamRowWrite (p : Plc) (seg : Fin 8192) (errs : List (Fin 32 × Nat))
  /-- R304: A token row arrives in a token queue and its count is checked. -/
  | tokenRowWrite (p : Plc) (seg : Fin 8192) (errs : List (Fin 32 × Nat))
  /-- R297: A credit beat delivers its credit entries to the bound source ports and slots. -/
  | creditBeat (g : SegName) (b : CreditBits)
  /-- R302: A fork sends its input row on every output once all outputs hold credit. -/
  | forkFire (c : Cluster) (e : BitVec 3)
  /-- R301: A join sends one row from each input as consecutive rows on its output. -/
  | joinFire (c : Cluster) (e : BitVec 3)
  /-- R307: A switch or merge pairs its head token with a row, checks the lap tag and sends the row. -/
  | fireSteered (c : Cluster) (e : BitVec 3)
  /-- R317: The placement's no-progress watchdog expires and a fault drain starts without charging a unit. -/
  | noProgress (p : Plc)
  /-- R321: A draining placement becomes quiet with no sample in flight, and its cores are stopped. -/
  | drainEnd (p : Plc)
  /-- R322: A fault drain reaches its limit or sees a halted core, and is forced to stop and discard. -/
  | drainLimit (p : Plc)
  /-- R768: A planned recovery's context drain is not quiet after 4 ms and becomes a fault drain. -/
  | contextDrainTimeout (p : Plc)
  /-- R325: The LOAD command checks a staged timetable image and writes units and routers. -/
  | load (img : Image)
  /-- R325: A loaded or resumed placement starts at the next T tick. -/
  | placementStart (p : Plc)
  /-- R572: The UNLOAD command context-drains a placement and releases its resources. -/
  | unload
  /-- R270: A WRITE packet is checked, including hall-pass checks, and applied to the destination scratchpad. -/
  | write (i : Nat) (d : Damage)
  /-- R416: A MESSAGE packet is checked for acceptance and its rows placed in the receive ring. -/
  | message (i : Nat) (d : Damage)
  /-- R459: A port tile serves a DMA_READ request and returns READ_REPLY packets. -/
  | dmaRead (i : Nat) (d : Damage)
  /-- R924: A port tile writes a DMA_WRITE packet's rows into the stack and acknowledges it. -/
  | dmaWrite (i : Nat) (d : Damage)
  /-- R474: A port tile checks a gather request, pools its table entries and replies. -/
  | gather (i : Nat) (d : Damage)
  /-- R459: A READ_REPLY packet writes rows at the requester and increments its reply counter. -/
  | readReply (i : Nat) (d : Damage)
  /-- R374: An ACK frees a re-send record and completes the operation when all its packets are acknowledged. -/
  | ack (i : Nat) (d : Damage)
  /-- R379: A NAK at the source leads to a re-send or failure of the operation. -/
  | nak (i : Nat) (d : Damage)
  /-- R356: A router forwards a packet's head flit on a productive output in a free cycle or bubble. -/
  | packetHop (i : Nat) (d : Dir) (h : HopMade)
  /-- R381: A packet's timeout passes without answer and it is re-sent or failed with FAB_LIMIT. -/
  | resendTimeout (ep : Nat) (rec : Nat)
  /-- R379: A delayed re-send after NAK_BUSY or NAK_HP_PAUSED re-reads its rows and is transmitted. -/
  | resend (ep : Nat) (rec : Nat)
  /-- R361: A flow closes after 3,200 T ticks without an unacknowledged packet. -/
  | flowClose (ep : Nat) (dst : Epid)
  /-- R363: A reorder context closes 1,600 T ticks after its flow's last delivered packet. -/
  | reorderContextClose (ep : Nat) (src : Epid)
  /-- R341: At the flip time every router makes the written epoch active. -/
  | epochFlip
  /-- R349: After the 1,000-tick wait the fabric discards contexts, rewrites both epochs and resumes sources. -/
  | fabricDrain
  /-- R457: A bank refresh in the fixed per-bank rotation falls due. -/
  | refresh (t : Tile) (channel : Bool)
  /-- R456: A port tile's patrol scrub reads a row in an unused sector time and writes back a correction. -/
  | patrolScrub (t : Tile) (otherWrite : Bool)
  /-- R481: The background check of loam copy B completes and a failure posts a LOAM_COPY event. -/
  | loamCopyBCheck (p : Plc)
  /-- R469: A write to a table descriptor holds word 1 or installs both words after checks. -/
  | hbmTbl (t : Tile) (d : Fin 64) (word : Bool) (v : Word)
  /-- R486: The EXPORT command streams a stack range with parity shards to host queues. -/
  | exportJob
  /-- R503: A port trains its lanes through signal detect, lock, equalisation, framing, measurement and link start. -/
  | portTraining (n : Port) (saved : Bool) (locked : BitVec 2) (accepted : BitVec 2)
  /-- R506: A port retrains after lock loss, excess uncorrectable codewords or the replay limit. -/
  | retrain (n : Port) (cause : RetrainCause) (accepted : BitVec 2)
  /-- R526: A lane loses CDR or frame lock and the port's reference moves to its other lane. -/
  | laneLockLoss (n : Port) (lane : Bool)
  /-- R514: A sequenced DATA flit is checked and accepted or discarded with a REPLAY request. -/
  | data (n : Port) (f : Flit)
  /-- R532: A DOORBELL entry updates a doorbell value if it is not stale. -/
  | doorbell (n : Port) (f : Flit) (entries : List (BitVec 9 × BitVec 32))
  /-- R528: A SYNC_REQ is stamped and answered with SYNC_RESP. -/
  | syncReq (n : Port) (t1 : BitVec 128) (k2 : BitVec 4) (ticks3 : BitVec 16) (k3 : BitVec 4)
  /-- R529: A SET adds its adjustment to module time if permitted and answers SET_RESP. -/
  | setTime (n : Port) (adj : Word)
  /-- R517: A received REPLAY makes the sender resend buffered flits from the expected sequence. -/
  | replay (n : Port) (expected : BitVec 12)
  /-- R517: 8 µs without acknowledgement progress triggers a replay from the oldest buffered flit. -/
  | replayTimeout (n : Port)
  /-- R516: An IDLE flit delivers acknowledgement and credits only. -/
  | idle (n : Port) (f : Flit)
  /-- R516: 1 µs after accepting a sequenced flit with no acknowledgement sent, an IDLE flit is sent. -/
  | idleSend (n : Port)
  /-- R508: A CONTROL flit carries training, FFE tuning or a retrain request. -/
  | controlFlit (n : Port) (request : BitVec 8)
  /-- R545: The ring engine fetches descriptor rows once completion room and placement limits allow. -/
  | descriptorFetch (r : Fin 9) (readOk : Bool) (words : BitVec 512)
  /-- R566: A fetched RUN descriptor is checked, deduplicated and queued for delivery, or completed at once. -/
  | run (r : Plc) (index : BitVec 32)
  /-- R550: The ring engine packs a descriptor's input into intake rings by WRITE operations. -/
  | inputDelivery (r : Plc) (readOk : Bool) (input : List Row)
  /-- R556: The ring engine checks an output WRITE, buffers its rows and writes them to the host. -/
  | outputWrite (i : Nat) (d : Damage)
  /-- R560: A descriptor's commit gate opens and it commits. -/
  | commitGateOpen (r : Plc) (index : BitVec 32)
  /-- R75: Every 100 ms while counters change, the proctor posts a COUNTERS event. -/
  | countersEvent (p : Plc)
  /-- R543: A ring set-up write enables the ring or resets its indices after checks. -/
  | hifRing (r : Fin 19) (word : BitVec 2) (v : Word)
  /-- R687: The ACCEPT_GRADE command sets the accepted bit of a below-grade module. -/
  | acceptGrade
  /-- R273: The CLOSE_PASS command removes a hall pass from the directory and its slot. -/
  | closePass
  /-- R617: The auxiliary input rises above 11.4 V and the AON island starts. -/
  | powerOn (mainInRange : Bool)
  /-- R585: The module starts on the FIO, acquires lanes, trims the FIO and locks CDRs. -/
  | coldStart (lanes : Word) (trimmed : Bool) (locked : BitVec 32)
  /-- R587: When all enabled ports lock or 10 ms pass, the lowest locked port becomes timing port and the PLL locks. -/
  | timingPortChoice
  /-- R597: The clock monitor declares source failure and the module stops, self-refreshes HBM and gates clocks. -/
  | sourceFailure (cause : SourceCause)
  /-- R600: A port is locked again, the PLL relocks and module-wide recovery runs. -/
  | relock (fioTicks : Nat)
  /-- R588: A CLK_TPORT write with choice valid names an up port as timing port. -/
  | chooseTimingPort (n : Port)
  /-- R591: A CLK_TPORT write clearing choice valid withdraws the host's choice without handover. -/
  | withdrawTimingPort
  /-- R593: A controlled handover measures the target's phase and switches the PLL at a T tick. -/
  | handover (target : Port) (targetLost : Bool) (currentLost : Bool)
  /-- R605: Every 1,000 T ticks the proctor compares each die's copy of module time with the master. -/
  | dieTimeCheck
  /-- R634: In recess the comparator matches the wake address and latches a wake event. -/
  | twoWireWake (address : BitVec 7)
  /-- R635: In recess a lane leaving electrical idle for 1 µs latches a wake event. -/
  | linkSignalWake (n : Port)
  /-- R617: A latched wake is taken and the module starts if the main input is in range within 1 s. -/
  | wake (mainInRange : Bool)
  /-- R617: Main returns and stays in range 100 ms after a main-sag save, and start-up begins. -/
  | mainReturn
  /-- R640: The main input stays below 45.0 V for 2 µs. -/
  | mainSag
  /-- R640: The auxiliary input stays below 10.8 V for 2 µs. -/
  | auxiliarySag
  /-- R647: T0 ends the 10 ms save window, leaving an unfinished slot invalid. -/
  | saveWindowEnd (headerWritten : Bool) (duration : BitVec 11)
  /-- R631: The AON rail stays below 0.72 V for 1 µs and the AON island resets. -/
  | brownOut (mainInRange : Bool)
  /-- R651: The T0 watchdog reaches its period and the AON island resets. -/
  | t0Expiry (mainInRange : Bool)
  /-- R883: A sensor over its trip limit for 10 µs forces the safe state and recess without a save. -/
  | thermalTrip
  /-- R884: The trip latch clears 10 s after the trip and a held wake is taken. -/
  | tripLatchClear (mainInRange : Bool)
  /-- R785: Every 100 µs the service tile refreshes temperature and voltage readings. -/
  | sensorRefresh (r : Region) (temp : Int) (stackTemp : Int) (proctorTemp : Int) (volts : Nat)
  /-- R875: PG_IN stays low for 2 µs while power stages are on and is handled as a main sag. -/
  | pgInLow
  /-- R877: LINK_RST_N held low for 10 µs resets every port and declares source failure. -/
  | linkReset
  /-- R877: LINK_RST_N rises and the ports train again as in a cold start. -/
  | linkResetRelease
  /-- R625: A nap request drains placements, self-refreshes HBM and turns region rails off. -/
  | nap
  /-- R628: A leave-nap request runs the waves, rewrites tables and reloads every placement. -/
  | leaveNap
  /-- R805: A recess request runs the orderly shutdown with exam and save, then enters recess. -/
  | recess
  /-- R619: A region's wave slot begins 250 µs after the previous one. -/
  | waveSlot (r : Region)
  /-- R620: A sub-wave powers one cluster row of a region with soft-start. -/
  | subWave (r : Region) (sub : Fin 5)
  /-- R623: A region rail not in regulation 40 µs after its sub-wave is turned off and the region fenced. -/
  | railRegulationTimeout (r : Region)
  /-- R718: A write to PWR_CAP lowers the cap within 100 µs or is refused as a raise. -/
  | pwrCap (v : Word)
  /-- R716: Every 10 µs the power limiter samples input power and lowers or releases region clock steps. -/
  | limiterSample (avg100 : Nat) (avg1000 : Nat) (milliVolts : Nat) (hottest : List Region)
  /-- R668: Die-to-die links train with wire repair and settle in full, half or disabled mode. -/
  | dieLinkTraining (tile : Site) (link : Bool) (saved : Bool) (failed : List Nat)
  /-- R672: HBM channels train with pin repair, fencing channels beyond repair. -/
  | hbmTraining (t : Tile) (channel saved : Bool) (pins : List Nat) (trained : Bool)
  /-- R808: The exam runs the analogue checks and the roll-call tests at three rail points. -/
  | exam (f : ExamFindings)
  /-- R675: Roll call tests every unit in isolation. -/
  | rollCall (failed : List Site) (routers : List Region) (repairs : List (MNum × Bool × Fin 8 × Nat))
  /-- R679: Fuses, field defect map and roll call are reconciled, seating built and grade decided. -/
  | reconcile
  /-- R708: At each whole hour the oldest fault-point bucket is dropped. -/
  | pointBucketDrop
  /-- R720: A micro-quiz of a unit falls due in the 6-hour rotation and runs in segments. -/
  | microQuiz (u : Site) (r : QuizRun)
  /-- R729: Every 30 s a detained unit is quizzed, leaving detention after 64 clean quizzes. -/
  | detentionQuiz (u : Site) (r : QuizRun)
  /-- R709: A host nomination adds 4 fault points to the named unit. -/
  | chkSuspect (v : Word)
  /-- R696: A write to CHK_CTRL enables or disables detectors and sets bound void. -/
  | chkCtrl (v : Word)
  /-- R750: A detector fault or other cause starts the recovery step machine for a placement. -/
  | recovery (p : Plc) (cause : RecCause)
  /-- R750: A step's acknowledgement arrives and the machine issues the next step. -/
  | recoveryStepAck (p : Plc)
  /-- R750: 20 µs pass without acknowledgement and the step is reissued or the placement stopped. -/
  | recoveryStepTimeout (p : Plc)
  /-- R751: An executor performs a recovery step once, answering repeats without effect. -/
  | stepExecute (p : Plc) (vote : VoteResult)
  /-- R771: A REC_REQ fence request fences a unit, recovering its placement. -/
  | fenceRequest (v : Word) (request : BitVec 32)
  /-- R771: A REC_REQ reseat request moves a unit's logical site onto a spare. -/
  | reseat (v : Word) (request : BitVec 32)
  /-- R790: The proctor moves tail entries into their MRAM slots at up to 64 per ms. -/
  | reportPersist (n : Fin 65)
  /-- R797: A report datagram is sent when enough entries wait or the flush interval passes. -/
  | datagram
  /-- R796: The management route comes up and the queued entries are sent first. -/
  | managementRouteUp
  /-- R798: A write to RPT_ROUTE changes the route, keeping or dropping queued entries. -/
  | rptRoute (v : Word)
  /-- R802: A write to RPT_RDIDX copies a persistent entry into RPT_RDDATA. -/
  | rptRdidx (v : Word)
  /-- R824: A request clears the field defect map in RETURNED with matching confirmation. -/
  | tstFdmclr (v : Word)
  /-- R833: An authenticated LIFECYCLE block records a pending life-cycle transition. -/
  | lifecycle (readOk : Bool) (blk : BitVec 4096)
  /-- R836: An authenticated KEY_ROTATE block installs a new command key. -/
  | keyRotate (readOk : Bool) (blk : BitVec 4096)
  /-- R848: An authenticated FW_ACTIVATE block waits for quiescence to switch to the staged image. -/
  | fwActivate (readOk : Bool) (blk : BitVec 4096)
  /-- R849: At its quiescent point the firmware hands over and the staged image starts. -/
  | firmwareSwitch
  /-- R834: An authenticated HP_OPEN block opens a hall pass or adds credit to it. -/
  | hpOpen (readOk : Bool) (blk : BitVec 4096)
  /-- R821: An authenticated TEST_ACCESS block opens a raw scan session, ending service. -/
  | testAccess (readOk : Bool) (blk : BitVec 4096)
  /-- R833: An authenticated POWER_CAP block sets the cap, raising or lowering it. -/
  | powerCap (readOk : Bool) (blk : BitVec 4096)
  /-- R835: An authenticated FUSE_PROGRAM block blows permitted fuse bits. -/
  | fuseProgram (readOk : Bool) (blk : BitVec 4096)
  /-- R843: A load request reads and verifies a firmware image for boot or staging. -/
  | fwLoad (v : Word) (img : FwImage)
  /-- R854: A SEC_ATTEST request writes a signed attestation report to a host window. -/
  | attestReport (v : Word) (nonce : BitVec 256) (hostOk : Bool)
  /-- R856: A SEC_ATTEST request writes the identity certificate to a host window. -/
  | identityCertificate (v : Word) (hostOk : Bool)
  /-- R871: Two-wire command 0x01 sets the register pointer. -/
  | setPointer (offset : BitVec 32) (pec : Pec)
  /-- R872: Two-wire command 0x02 returns the word at the pointer and advances it. -/
  | readWord (pec : Pec)
  /-- R873: Two-wire command 0x03 writes a permitted register word and advances the pointer. -/
  | writeWord (v : Word) (pec : Pec)
  /-- R871: Two-wire command 0x04 returns PRC_WAKESRC bits 7:0. -/
  | readWakeSource
  /-- R872: Two-wire command 0x05 returns the status of the last pointer command. -/
  | readStatus
  /-- R880: An inbound management frame is answered for ARP, NDP or echo, or dropped and counted. -/
  | managementFrame (f : MgtFrame)
  /-- R881: A UDP read service request returns register words or report entries. -/
  | readService (request : BitVec 128)
  /-- R893: A host CONTROL READ is checked and answered with a REPLY carrying register words. -/
  | controlRead (i : Nat) (d : Damage)
  /-- R893: A host CONTROL WRITE is checked, applied to a register and answered with a REPLY. -/
  | controlWrite (i : Nat) (d : Damage)
  /-- R897: A write to a register without behaviour of its own updates its writable fields or is refused. -/
  | registerWrite (offset : BitVec 32) (values : List Word)
  /-- R603: At every T tick each die's copy of module time advances by 1, and while the root PLL is gated the master count advances on the FIO. -/
  | tTick
  /-- R343: 1,000 T ticks after a flip the retiring bit of FAB_EPOCH clears, and the retiring epoch may be written again. -/
  | retiringEpochRelease
  /-- R795: The management port leaves the up state, for example on loss of link synchronisation, and report entries start to queue. -/
  | managementRouteDown
  /-- R876: In service a rail leaves regulation; PG_OUT falls within 1 µs and a region whose rail failed is fenced (R47). -/
  | railLeavesRegulation (r : RailLoss)
  /-- R110: A bundle whose slots all hold opcode 0x00 issues, updating the signature and the bundle address, and raises IADDR at the last address. -/
  | nop (u : Site)
  /-- R831: The AUTH command reads a command block whose opcode or version is undefined, or whose read fails, and refuses it with FORMAT. -/
  | auth (readOk : Bool) (blk : BitVec 4096)
  /-- R862: 10 ms after a TAG refusal the module resumes examining waiting AUTH commands. -/
  | authHoldEnd
  deriving DecidableEq, Repr

end Sys2Proof
end

