-- ==== Sys2Proof/Config.lean ====
section
/-! DEFINITION. What the spec leaves open or takes from a published standard: constants without a body, so that no proof
can lean on a value. Each is named in the assumption log. -/

namespace Sys2Proof.Config

/-- How an error of two or more symbols decodes (R913): 0 uncorrectable, 1 poisoned, 2 no error, 3 miscorrected; the
first argument is the count of symbols in error, the second a fresh counter. -/
opaque swcOutcome (symbols fresh : Nat) : Fin 4
/-- The data that a miscorrected codeword delivers (R913). -/
opaque miscorrected (fresh : Nat) : BitVec 128
/-- The data under an uncorrectable codeword (R236, R452). -/
opaque damagedData (fresh : Nat) : BitVec 128
/-- The syndrome of an uncorrectable codeword (R914); the fault record takes it through `syndromeOf`. -/
opaque syndrome (fresh : Nat) : BitVec 16
/-- VEXP2, VLOG2, VRCP and VRSQRT of an FP32 element (R154): within their accuracy, otherwise open. -/
opaque vexp2 (x : BitVec 32) : BitVec 32
opaque vlog2 (x : BitVec 32) : BitVec 32
opaque vrcp (x : BitVec 32) : BitVec 32
opaque vrsqrt (x : BitVec 32) : BitVec 32
/-- The numeric flags that those functions raise (R149 names the flags, no rule says when a function raises them). -/
opaque vfunFlags (opcode : Nat) (x : BitVec 32) : BitVec 5
/-- A shift of an integer element by a count outside its width (R145 states no result). -/
opaque vshift (opcode : Nat) (width a b : Nat) : Nat
/-- Whether underflow is detected before rounding (IEEE 754 leaves it to the implementation; R146, R149). -/
opaque tinyBefore : Bool
/-- What VCVT gives where R153 states no result: a pair of types that is neither narrowing nor widening in one step. -/
opaque vcvtOpen (fresh : Nat) : BitVec 2048
/-- The window that a contribution of the zero tile (R918) sets, by the vector's MX format: the tile has no format, so R198
gives none. -/
opaque zeroTileWindow (fmt : Nat) : Fin 255
/-- Whether a bit is lost where a contribution or its tally is special (R204 gives the contribution no integer, so R200 tells not). -/
opaque specialLost (q c : Int) : Bool
/-- What DRAIN reads at a matrix-vector slot past 63 (R158 checks the slot base alone). -/
opaque openDrain (fresh : Nat) : BitVec 8192
/-- Whether a packet of a core that finds no re-send record free leaves after an answer has freed one (R230 spreads the packets over
cycles that the model does not count), or raises PKT_RECORDS (R376). -/
opaque recordInTime (fresh : Nat) : Bool
/-- The sample that a core serves at a moment, if any: its tag and its descriptor's sequence number (R698, R782). The timetable gives
each stage's samples, and no rule says how an image tells them. -/
opaque servedSample (site stamp : Nat) : Option (BitVec 14 × BitVec 64)
/-- KMAC256 with a key, a message and a customisation string number, truncated to 256 bits (R826, R830, R836). -/
opaque kmac256 (key : BitVec 256) (message : List Word) (custom : Nat) : BitVec 256
/-- SHA3-512 of the first bytes of some rows (R839, R840). -/
opaque sha3 (data : List Row) (bytes : Nat) : BitVec 512
/-- Whether an Ed25519 signature of 256 header bytes holds under a vendor key slot's key (R839, R841). -/
opaque ed25519Ok (slot : Byte) (message : BitVec 2048) (signature : BitVec 512) : Bool
/-- Whether an ML-DSA-65 signature of them holds, with context string "SVM-FW" (R839, R841). -/
opaque mlDsaOk (slot : Byte) (message : BitVec 2048) (signature : BitVec 26472) : Bool
/-- The rows of an attestation report after its 512-byte body (R854): keys and signatures of published standards. -/
opaque attestTail (measure : BitVec 512) (body : Row) : List Row
/-- The rows of the identity certificate (R856). -/
opaque identityRows (moduleId : BitVec 128) : List Row

/-- What a CONTROL flit's request code asks for (R511 leaves the codes to the training firmware): a training exchange, FFE
tuning, or a retrain. -/
opaque controlMeaning (request : BitVec 8) : Fin 3

/-- Whether a fuse word of the proctor die holds the module ID, the root secret or the life-cycle state (R835 names the fuses;
no rule gives their words). -/
opaque protectedFuse (word : BitVec 16) : Bool

/-- The answers of the fixed part's tests in a segment of a unit kind's micro-quiz, which the firmware stores (R723). -/
opaque quizAnswer (kind segment : Nat) : BitVec 64

/-- What a full training finds for a lane, an edge link or an HBM channel: coefficients and timing (R504, R674). -/
opaque trainedSettings (fresh : Nat) : BitVec 64

/-- The module number of each remote module alias in the alias table (R336): the proctor writes the table, and no rule gives
its contents. -/
opaque remoteModule (alias_ : Nat) : Option (BitVec 12)

end Sys2Proof.Config
end

