-- ==== Sys2Proof/Machine/Crc.lean ====
section
/-! DEFINITION. CRC-32C (R369) and small arithmetic that several chapters share. -/

namespace Sys2Proof.Machine

/-- One bit of the reflected CRC register with polynomial 0x1EDC6F41 (R369). -/
def crcBit (r : Nat) : Nat := if r % 2 = 1 then (r / 2) ^^^ 0x82F63B78 else r / 2

/-- The register after n bits. -/
def crcBits (r : Nat) : Nat → Nat
  | 0 => r
  | n + 1 => crcBits (crcBit r) n

/-- crc_update over the n low bytes of a number, low byte first (R129, R369). -/
def crcUpdate (r v : Nat) : Nat → Nat
  | 0 => r
  | n + 1 => crcUpdate (crcBits (r ^^^ (v % 256)) 8) (v / 256) n

/-- CRC-32C of n bytes (R369). -/
def crc32c (v n : Nat) : Nat := 0xFFFFFFFF ^^^ crcUpdate 0xFFFFFFFF v n

/-- The signature after one more bundle address (R129). -/
def sigUpdate (sig : BitVec 32) (pc : Nat) : BitVec 32 :=
  BitVec.ofNat 32 (0xFFFFFFFF ^^^ crcUpdate (0xFFFFFFFF ^^^ sig.toNat) (pc % 65536) 2)

/-- ⌈a ÷ b⌉. -/
def ceilDiv (a b : Nat) : Nat := (a + b - 1) / b

/-- A saturating count of 32 bits with n more. -/
def sat32 (c : BitVec 32) (n : Nat) : BitVec 32 := BitVec.ofNat 32 (min 0xFFFFFFFF (c.toNat + n))
/-- A saturating count of 48 bits with n more. -/
def sat48 (c : BitVec 48) (n : Nat) : BitVec 48 := BitVec.ofNat 48 (min 0xFFFFFFFFFFFF (c.toNat + n))
/-- A saturating count of 16 bits with n more. -/
def sat16 (c : BitVec 16) (n : Nat) : BitVec 16 := BitVec.ofNat 16 (min 0xFFFF (c.toNat + n))
/-- A saturating count of 8 bits with n more. -/
def sat8 (c : BitVec 8) (n : Nat) : BitVec 8 := BitVec.ofNat 8 (min 0xFF (c.toNat + n))

/-- The number of ones of a mask's n low bits. -/
def countOnes (m : Nat) : Nat → Nat
  | 0 => 0
  | n + 1 => m % 2 + countOnes (m / 2) n

/-- The positions of the ones of a mask's n low bits, rising. -/
def onesFrom (m i : Nat) : Nat → List Nat
  | 0 => []
  | n + 1 => if m % 2 = 1 then i :: onesFrom (m / 2) (i + 1) n else onesFrom (m / 2) (i + 1) n

/-- A word from its fields, each a value and its lowest bit. -/
def fields (l : List (Nat × Nat)) : Nat := l.foldl (fun acc p => acc + p.1 * 2 ^ p.2) 0

/-- The least number of a list. -/
def leastOf : List Nat → Option Nat
  | [] => none
  | x :: t => match leastOf t with
    | none => some x
    | some y => some (min x y)

end Sys2Proof.Machine
end

