-- ==== Sys2Proof/Machine/Geometry.lean ====
section
/-! DEFINITION. Sites, regions, dies, clusters and the floor of a region (R16 to R25). Sites are numbers Y * 160 + X. -/

namespace Sys2Proof.Machine

def siteX (u : Nat) : Nat := u % 160
def siteY (u : Nat) : Nat := u / 160
def siteXY (x y : Nat) : Nat := y * 160 + x
/-- A site number as a Site; numbers past the last site wrap. -/
def toSite (u : Nat) : Site := Fin.ofNat 12800 u

/-- R17. -/
def regionOf (u : Nat) : Nat := (siteY u / 20) * 8 + siteX u / 20
/-- R17. -/
def dieOf (u : Nat) : Nat := (siteY u / 40) * 4 + siteX u / 40
/-- The die of a region (R16). -/
def regionDie (r : Nat) : Nat := (r / 16) * 4 + (r % 8) / 2
/-- The cluster number within its region (R17). -/
def clusterOf (u : Nat) : Nat := ((siteY u % 20) / 4) * 5 + (siteX u % 20) / 4
/-- The cluster of the module: region * 25 + cluster. -/
def gclusterOf (u : Nat) : Nat := regionOf u * 25 + clusterOf u
/-- Column and row in the unmirrored floor (R20). -/
def floorCol (u : Nat) : Nat := if regionOf u % 8 % 2 = 1 then 19 - siteX u % 20 else siteX u % 20
def floorRow (u : Nat) : Nat := if regionOf u / 8 % 2 = 1 then 19 - siteY u % 20 else siteY u % 20
/-- The site at a column and row of a region's unmirrored floor (R20). -/
def floorSite (r c w : Nat) : Nat :=
  siteXY (r % 8 * 20 + if r % 8 % 2 = 1 then 19 - c else c) (r / 8 * 20 + if r / 8 % 2 = 1 then 19 - w else w)

/-- Whether a site lies in a matrix cluster, 11 or 13 of its region (R19). -/
def inMatrix (u : Nat) : Bool := clusterOf u == 11 || clusterOf u == 13
/-- The lowest-X, lowest-Y site of a site's cluster, by which an M-core is named (R16). -/
def clusterBase (u : Nat) : Nat := siteXY (siteX u / 4 * 4) (siteY u / 4 * 4)
/-- The lowest site of cluster c of region r. -/
def clusterSite (r c : Nat) : Nat := siteXY (r % 8 * 20 + c % 5 * 4) (r / 8 * 20 + c / 5 * 4)
/-- The site of M-core n: region n / 2, cluster 11 then 13 (R907). -/
def mcoreSite (n : Nat) : Nat := clusterSite (n / 2) (if n % 2 = 0 then 11 else 13)

/-- The spur tile of a region (R19). -/
def spurSite (r : Nat) : Nat := floorSite r 10 10
/-- The service tiles of a region, by column 0 and 19 of the floor (R19). -/
def serviceSite (r : Nat) (second : Bool) : Nat := floorSite r (if second then 19 else 0) 0
/-- The port tile of a region in floor column 2 + k (R19). -/
def portTileSite (r k : Nat) : Nat := floorSite r (2 + k) 19
/-- Whether a site holds an edge tile (R19). -/
def isEdgeTile (u : Nat) : Bool :=
  (floorRow u == 0 && [2, 7, 12, 17].contains (floorCol u)) || (floorCol u == 0 && [2, 7, 12, 17].contains (floorRow u))

/-- The edge tile that an edge tile faces across a die boundary: none on a side that faces the module boundary (R20, R21, R23). -/
def facingTile (u : Nat) : Option Nat :=
  if floorRow u = 0 then
    (if siteY u = 0 ∨ siteY u = 79 then none else if siteY u % 40 = 0 then some (u - 160) else some (u + 160))
  else if siteX u = 0 ∨ siteX u = 159 then none
  else if siteX u % 40 = 0 then some (u - 1) else some (u + 1)
/-- The two ends of an edge link share it (R21): its key is the lower of its two tiles * 2 + its number. -/
def edgeLinkKey (u link : Nat) : Nat := (match facingTile u with | some v => min u v | none => u) * 2 + link

/-- The kind of unit at a site, but for the difference of V-core and S-core, which the unit inventory gives (R19, R20):
none for the fifteen sites of a matrix cluster that do not name its M-core. -/
def floorKind (isV : Bool) (u : Nat) : Option UnitKind :=
  if inMatrix u then (if clusterBase u = u then some .mCore else none)
  else if floorCol u = 10 ∧ floorRow u = 10 then some .spurTile
  else if floorRow u = 0 ∧ (floorCol u = 0 ∨ floorCol u = 19) then some .serviceTile
  else if isEdgeTile u then some .edgeTile
  else if floorRow u = 19 ∧ 2 ≤ floorCol u ∧ floorCol u ≤ 17 then some .portTile
  else some (if isV then .vCore else .sCore)

/-- Hops of a minimal path between two sites. -/
def hopCount (u v : Nat) : Nat :=
  (max (siteX u) (siteX v) - min (siteX u) (siteX v)) + (max (siteY u) (siteY v) - min (siteY u) (siteY v))

/-- The smallest key of a list of pairs, with its value; the first of equals. -/
def leastKey : List (Nat × Nat) → Option Nat
  | [] => none
  | x :: t => some ((t.foldl (fun a y => if y.1 < a.1 then y else a) x).2)

/-- The neighbour of a site in a direction, if the mesh goes on (R282). -/
def neighbour (u : Nat) : Dir → Option Nat
  | .north => if siteY u = 0 then none else some (u - 160)
  | .south => if siteY u = 79 then none else some (u + 160)
  | .west => if siteX u = 0 then none else some (u - 1)
  | .east => if siteX u = 159 then none else some (u + 1)
  | .edge => none

end Sys2Proof.Machine
end

