-- ==== Sys2Proof/Machine/CoreTypes.lean ====
section
/-! DEFINITION. The state of a core (R98), of its scratchpad's bookkeeping, and of an M-core's units (R172). -/

namespace Sys2Proof.Machine

/-- A 64-bit value with its poison mark (R167). -/
structure PVal where
  v : Word
  p : Bool
  deriving DecidableEq, Repr

/-- A vector register with one poison mark for each byte (R98, R167). -/
structure VReg where
  v : BitVec 2048
  p : BitVec 256
  deriving DecidableEq, Repr

/-- Where a result lands (R105): a general register, a window word, a whole window, a vector register, a pair, or a
scratchpad row. -/
inductive Dest where
  | gpr (i : Nat)
  | win (k : Nat)
  | window (w : Nat)
  | vec (i : Nat)
  | pair (p : Nat)
  | row (r : Nat)
  deriving DecidableEq, Repr

/-- A result on its way: readable by bundles issued at cycle `due` or later (R105, R117); `pois` marks its bytes; `mask`
marks the bytes that it writes. -/
structure Pend where
  due  : Nat
  slot : Nat
  dest : Dest
  val  : Row
  pois : BitVec 512
  mask : BitVec 512
  deriving DecidableEq, Repr

/-- One slot of a bundle: its slot number, opcode and the bits below the opcode (R109, R110), and the error that strikes its
arithmetic (R693). -/
structure SlotOp where
  slot : Nat
  opc  : Nat
  w    : Nat
  upset : Option Upset := none
  deriving DecidableEq, Repr

/-- An inbound DMA whose rows are still to come (R138): the operation, the port tile that serves it, its rows, its counter, how many
rows are left, and the K-cycle of its declared bound (R65), scheduled as `Due`. -/
structure DmaIn where
  op      : Nat
  src     : Epid
  base    : Nat
  n       : Nat
  counter : Nat
  left    : Nat
  due     : Option Nat
  deriving DecidableEq, Repr

/-- Requested rows of a counter (R65): the count before them, how many they are, the K-cycle of their declared bound as the static
report schedules it (none without a bound), and the lag of the stage that requested them (R74). -/
structure Due where
  counter : Nat
  start   : BitVec 32
  n       : Nat
  at_     : Option Nat
  lag     : Nat
  deriving DecidableEq, Repr

/-- A bundle held at issue (R107, R125): a wait or a stall, since a cycle, last found to hold at a cycle; a stall on an inbound DMA
with a declared bound keeps the scheduled K-cycle of that bound (R68). -/
structure Held where
  ops    : List SlotOp
  isWait : Bool
  since  : Nat
  tested : Nat
  due    : Option Nat
  deriving DecidableEq, Repr

/-- A core's run state (R128, R164, R738): not loaded or stopped, running, halted, or fenced. -/
inductive RunState where
  | stopped | running | halted | fenced
  deriving DecidableEq, Repr

/-- A send channel's state (R401). -/
inductive SendState where
  | ready | refused | resuming
  deriving DecidableEq, Repr

/-- A receive channel's state (R402). -/
inductive RecvState where
  | opened | closed
  deriving DecidableEq, Repr

/-- A message channel: its table entry (R397) with the fields of both channel words (R401, R402), the sequence a receiver
expects, its counters (R438), and whether it has been loaded since start-up (R433). -/
structure Chan where
  entry     : Word
  sendState : SendState
  recvState : RecvState
  paused    : Bool
  gen       : BitVec 8
  seen      : Bool
  nextSeq   : BitVec 16
  lastRef   : BitVec 8
  inFlight  : Nat
  wo        : Nat
  ro        : Nat
  used      : Nat
  delivered : BitVec 15
  expected  : BitVec 16
  cDelivered : BitVec 32
  cDropped  : BitVec 32
  cStalled  : BitVec 32
  deriving DecidableEq, Repr

/-- The entry of a hall pass (R264) with its slot's counters (R277). -/
structure HallPass where
  number : BitVec 16
  dst    : Epid
  counter : BitVec 6
  paused : Bool
  base   : Nat
  rows   : Nat
  srcBase : BitVec 12
  srcMask : BitVec 12
  credit : Nat
  expiry : Tick
  accepted : BitVec 32
  refusedW : BitVec 32
  deriving DecidableEq, Repr

/-- An input ring bound to an input port (R292): the next row; for each row not yet released the counter after it (R245); and the target
of the last WAITC on its counter (R293). -/
structure InRing where
  plc     : Plc
  seg     : Nat
  base    : Nat
  n       : Nat
  counter : Nat
  next    : Nat
  counts  : List (BitVec 32)
  prevTarget : Option (BitVec 32)
  deriving DecidableEq, Repr

/-- A core (R98; `scrub` is the row that its scrubber reads next, `scrubAt` when it last moved on, R239): registers, windows, vector registers, status words, counters, signature, fault record, instruction
store, results on their way, the requests by counter with the rows requested so far, and what the loader bound to it; its lag (R74) and the K-cycles that a lowered clock has suppressed since it started (R37). Times are cycles of its own issue clock (sw49). -/
structure Core where
  profile  : Profile
  run      : RunState
  plc      : Option Plc
  gpr      : Tbl PVal
  win      : Tbl PVal
  vec      : Tbl VReg
  slots    : Tbl Word
  chans    : Tbl Chan
  flags    : BitVec 5
  fcode    : BitVec 8
  fcount   : BitVec 8
  frec0    : Word
  frec1    : Word
  counters : Tbl (BitVec 32)
  sig      : BitVec 32
  pc       : Nat
  cycle    : Nat
  startTick : Tick
  pstate   : Bool
  pend     : List Pend
  forming  : List SlotOp
  held     : Option Held
  dmaIn    : List DmaIn
  dues     : List Due
  asked    : Tbl (BitVec 32)
  drainOut : List Nat
  istore   : Tbl (BitVec 512)
  istoreErrs : Tbl Nat
  startPc  : Nat
  bounds   : List ImgBound
  lag      : Nat
  lost     : Nat
  strict   : Bool
  guards   : List Guard
  arrived  : List Nat
  readable : List Nat
  passes   : List HallPass
  outPorts : Tbl (Plc × Nat)
  inRings  : Tbl InRing
  corrected : BitVec 32
  scrub    : Nat
  scrubAt  : Option Tick
  logical  : Option Site
  deriving DecidableEq, Repr

/-- A tally slot (R188): LIVE or EMPTY, its tallies by column, its check tally, and whether a contribution was poisoned
or its check failed (R167, R221). -/
structure TSlot where
  live  : Bool
  lanes : Tbl Tally
  chk   : Tally
  pois  : Bool
  deriving DecidableEq, Repr

/-- A vector in the feeder queues (R183, R917): its bytes, its format, its eight scales and its poison. -/
structure FVec where
  fmt   : Nat
  data  : Row
  scale : Word
  pois  : Bool
  deriving DecidableEq, Repr

/-- A weight tile (R178, R179): its format (none for the zero tile of R918), its rows, its scale rows, and its poison. -/
structure Tile2 where
  fmt   : Option Nat
  rows  : List Row
  scales : List Row
  pois  : Bool
  deriving DecidableEq, Repr

/-- A command of one of the five queues (R160), with the bundle that issued it (R915) and how much of it is done. -/
structure MCmd where
  opc  : Nat
  w    : Nat
  slot : Nat
  pc   : Nat
  cyc  : Nat
  done : Nat
  deriving DecidableEq, Repr

/-- A contribution between the array and its slot (R185, R200), with the issue cycle of its PASS. -/
structure Contrib where
  cyc  : Nat
  bank : Bool
  slot : Nat
  vec  : FVec
  tile : Tile2
  deriving DecidableEq, Repr

/-- An MVM that has begun (R215, R221): its last weight read, its chunks of the vector once read, the CHKCS that checks it, the column
sums that it read, and the A-cycle by which what has been read of both is complete. -/
structure MvJob where
  cmd  : MCmd
  last : Nat
  xs   : List FVec
  chk  : Option MCmd
  sums : List Row
  drained : Nat
  deriving DecidableEq, Repr

/-- A row read that a unit has still to make (R161, R179, R215): not before an A-cycle, on the vector port or on a shared one, for
a part of its command's rows: 0 its tile, weights or sums, 1 their scales, 2 its vector, 3 the vector's scales. -/
structure URead where
  due  : Nat
  vec  : Bool
  part : Nat
  row  : Nat
  cmd  : MCmd
  deriving DecidableEq, Repr

/-- A row that a unit has read: the opcode of its command, its part there, its bytes and its poison marks. -/
structure URow where
  opc  : Nat
  part : Nat
  data : Row
  pois : Nat
  deriving DecidableEq, Repr

/-- An M-core's units (R172): the five queues; the row reads still to be made, the rows read, the A-cycle from which a shared read is
free and the one by which each unit's reads are worked off; the feeder queues; the active and the shadow tile, the LDW in progress, whether a SWAP is marked
and until which A-cycle the released buffer is busy; the PASS in progress and whether it met a wrong rate class;
contributions on their way; tally banks and matrix-vector slots; MVMs not yet checked; slot
ranges whose check failed and is still to be raised (R221); the half row of a drain and the rows of its next vector that have left (R211); the owner
of the check column (true for the matrix-vector path); the chunks of an MVM whose CHKCS has not issued; MAT_FEEDMAP; how many
comparisons met a weakened or a special row (R218); and the physical rows (false) and columns (true) known to be faulty. -/
structure MCore where
  feedQ   : List MCmd
  arrayQ  : List MCmd
  mvQ     : List MCmd
  drainQ  : List MCmd
  checkQ  : List MCmd
  reads   : List URead
  got     : List URow
  portCyc : Nat
  dones   : Tbl Nat
  fifo    : List FVec
  active  : Tile2
  shadow  : Tile2
  ldw     : Option MCmd
  swapped : Bool
  busyTill : Nat
  pass    : Option MCmd
  mismatch : Bool
  flight  : List Contrib
  bank0   : Tbl TSlot
  bank1   : Tbl TSlot
  mvSlots : Tbl TSlot
  mvJobs  : List MvJob
  mvBad   : List (Nat × Nat)
  half    : Option (BitVec 2048 × Bool)
  sent    : Nat
  owner   : Bool
  mvOpen  : Option Nat
  map0    : Word
  map1    : Word
  weakened : BitVec 48
  specials : BitVec 48
  arrayBad : List (Bool × Fin 8 × Nat)
  deriving DecidableEq, Repr

end Sys2Proof.Machine
end

