-- ==== Sys2Proof/Machine/FabricTypes.lean ====
section
/-! DEFINITION. The state of the packet fabric, of streams and stream switches, and of HBM port tiles. -/

namespace Sys2Proof.Machine

/-- A packet in flight (R354): its header fields, its payload rows and the site whose router holds it. -/
structure Packet where
  dst     : Epid
  dstSite : Nat
  epoch   : Bool
  srcSite : Nat
  src     : Epid
  ptype   : Nat
  injTime : BitVec 16
  seq     : BitVec 16
  opn     : Bool
  srcPois : BitVec 2
  last    : Bool
  op      : BitVec 128
  rows    : List PRow
  pos     : Nat
  toPort  : Option Port
  fromPort : Option Port
  crossX  : Option (Fin 8) := none
  crossY  : Option (Fin 8) := none
  deriving DecidableEq, Repr

/-- What a packet operation is for (R374): used when it is done or fails. -/
inductive OpKind where
  | write | message (ch : Nat) (seq : BitVec 16) | dmaRead (base : Nat) | dmaWrite | gather | reply | input (r : Plc) (index : BitVec 32)
  | output (r : Plc) (index : BitVec 32)
  deriving DecidableEq, Repr

/-- A packet operation at its source (R374, R382). -/
structure Op where
  id     : Nat
  kind   : OpKind
  dst    : Epid
  slot   : Option Nat
  rows   : Nat
  acked  : Nat
  left   : Nat
  failed : Bool
  pc     : Nat := 0
  bslot  : Nat := 0
  cyc    : Nat := 0
  deriving DecidableEq, Repr

/-- A re-send record (R375): the header, the transmission count, the payload CRC and where the rows are read again;
senders without a scratchpad keep the rows (assumption log). -/
structure Rec where
  hdr    : Packet
  op     : Nat
  sent   : Nat
  lastTx : Tick
  crc    : BitVec 32
  base   : Option Nat
  count  : Nat
  kept   : List PRow
  delayed : Option Tick
  deriving DecidableEq, Repr

/-- An open flow at a source (R361). -/
structure Flow where
  dst    : Epid
  next   : BitVec 16
  busy   : Bool
  lastAct : Tick
  deriving DecidableEq, Repr

/-- A reorder context (R363): what it expects, what it holds (each with its payload damage), and the operation that it is in
the middle of: rows received, where they go, the code that refuses it, the counter and the channel's ring that it uses, and
the rows of a request; and the packets that it has refused for good, with their codes. -/
structure Ctx where
  src      : Epid
  expected : BitVec 16
  held     : List Packet
  last     : Tick
  progress : Nat
  place    : Option Nat
  refuse   : Option Nat
  counter  : Nat
  gather   : List PRow
  refusals : List (BitVec 16 × Nat)
  deriving DecidableEq, Repr

/-- An operation waiting for the outbound engine (R230): `done` of its rows have left; `port` is set for an SPUSH;
`waited` once it has met the in-flight limit (R408); `pc`, `bslot` and `cyc` name its bundle (R915). -/
structure OutReq where
  kind  : OpKind
  ptype : Nat
  dst   : Epid
  base  : Nat
  count : Nat
  done  : Nat
  op    : BitVec 128
  id    : Nat
  rows  : Option (List PRow)
  port  : Option Nat
  waited : Bool
  pc    : Nat
  bslot : Nat
  cyc   : Nat
  deriving DecidableEq, Repr

/-- The send and receive engines of a site, or of a ring engine under key 12,800 + n (R361 to R394). -/
structure Endpoint where
  flows  : List Flow
  recs   : List Rec
  ops    : List Op
  ctxs   : List Ctx
  outq   : List OutReq
  nextOp : Nat
  cnt    : Tbl (BitVec 32)
  deriving DecidableEq, Repr

/-- A row on a stream with its poison mark (R279, R309), in a queue the T tick at which it entered (R317), and the lag of the stage that
sent it (R74). -/
structure SRow where
  data   : Row
  poison : BitVec 32
  stamp  : Tick
  lag    : Nat
  deriving DecidableEq, Repr

/-- The way of a segment over the mesh (R282, R283): its hops, the frame cycles that it reserves on the first, and for credits on the first
hop back; the hops after which a slack stage stands, with the stages' settings (R76, R77); and the hops, longer or shorter than the
timetable's, that its stages could not absorb (R81). -/
structure Route where
  path    : List Hop
  frames  : List (Fin 16)
  back    : List (Fin 16)
  slackAt : List Nat
  slacks  : List Nat
  extra   : Int
  deriving DecidableEq, Repr

/-- A segment of a stream in service (R286, R296): credits at the source, credits owed by the queue, the rows in its send buffer (R291),
the rows on its links, the reserved cycles saved towards the next row, its way, and whether a shortening past its slack leaves its queue
no room, so that the credit stall that follows counts as silt (R81). -/
structure Seg where
  plc     : Plc
  id      : Nat
  src     : SegSrc
  dst     : SegDst
  cap     : Nat
  credits : Nat
  owed    : Nat
  buf     : List SRow
  transit : List SRow
  beats   : Nat
  route   : Route
  tight   : Bool
  deriving DecidableEq, Repr

/-- A data queue of a stream switch (R294). -/
structure DataQ where
  desc : BitVec 32
  plc  : Plc
  seg  : Nat
  rows : List SRow
  deriving DecidableEq, Repr

/-- A token row in its queue: the T tick at which it entered, its tokens left (R294, R304), its poison mark (R309), and the lag of
the stage that sent it (R74). -/
structure TRow where
  stamp  : Tick
  tokens : List (BitVec 16)
  poison : Bool
  lag    : Nat
  deriving DecidableEq, Repr

/-- A token queue of a stream switch (R294). -/
structure TokenQ where
  desc : BitVec 16
  plc  : Plc
  seg  : Nat
  rows : List TRow
  deriving DecidableEq, Repr

/-- A steering element (R300) with its lap counter (R305). -/
structure Element where
  desc : BitVec 64
  plc  : Plc
  lap  : BitVec 8
  deriving DecidableEq, Repr

/-- A cluster's stream switch (R294, R300): queues, elements, and the segment each output slot feeds. -/
structure Switch where
  dq    : Tbl DataQ
  tq    : Tbl TokenQ
  el    : Tbl Element
  out   : Tbl (Plc × Nat)
  deriving DecidableEq, Repr

/-- Memory of rows with its marks (R226, R227, R913): bytes, poisoned codewords, and symbols in error by codeword. -/
structure Store where
  cells  : List Host.Cell
  poison : List Nat
  errs   : Tbl Nat
  deriving DecidableEq, Repr

/-- A table descriptor of a port tile (R468, R469): the installed words and the held word 1. -/
structure TblDesc where
  w0   : Word
  w1   : Word
  hold : Word
  deriving DecidableEq, Repr

/-- A port tile (R444 to R469): damaged rows, corrected-word counters, tables, refresh rotation and patrol scrub. -/
structure PortTile where
  damaged : List Nat
  corr    : Tbl (BitVec 32)
  tables  : Tbl TblDesc
  bank    : Tbl Nat
  scrub   : Nat
  deriving DecidableEq, Repr

/-- One epoch of the fabric's tables (R334 to R336), the same in every cluster router and injection point: whether it
has been written since power-on; the site entries that differ from bring-up (R330, R331); which port IDs are valid, the
ports of the output aliases and of the host windows and remote aliases (R923); the ports' injection points that differ
from their spur tiles; and the remote aliases' module numbers. -/
structure Tables where
  written : Bool
  route   : Tbl (BitVec 20)
  ports   : BitVec 32
  outs    : Tbl (Option Port)
  hostPort : Option Port
  inject  : Tbl (Option Nat)
  remote  : Tbl (Option (BitVec 12))
  deriving DecidableEq, Repr

/-- The packet fabric: tables by epoch, FAB_EPOCH and FAB_RSTO (R347, R381), packets in flight, the endpoints, and by router whether the
last packet that two outputs offered the same cycle left along X (R356); the symbols in error of the routers' table entries (R48, R913), and
the sites whose router has met one that it cannot correct (R47). -/
structure Fabric where
  tab0     : Tables
  tab1     : Tables
  active   : Bool
  pending  : Bool
  retiring : Bool
  flipTime : Tick
  flippedAt : Tick
  want     : Option Tables
  rstoRemote : BitVec 8
  rstoLocal : BitVec 8
  drainFrom : Option Tick
  flight   : List Packet
  eps      : Tbl Endpoint
  turns    : Tbl Bool
  routerErrs : Tbl Nat
  routersUe : List Nat
  deriving DecidableEq, Repr

end Sys2Proof.Machine
end

