-- ==== Sys2Proof/Machine/HostTypes.lean ====
section
/-! DEFINITION. The state of host-link ports (R494 to R533), of rings and descriptors (R539 to R576), of placements
(R62 to R90, R314 to R325), and what leaves the module. -/

namespace Sys2Proof.Machine

/-- What leaves the module, oldest first: entries to host rings (R564, R574), rows to host windows and reads of
them, packets and flits on
a port, two-wire answers (R871), management datagrams (R797, R880, R881). -/
inductive Out where
  | completion (ring : Nat) (slot : Nat) (w0 w1 w2 w3 : Word)
  | event (slot : Nat) (w0 w1 : Word) (payload : List Word)
  | hostRow (port : Port) (window : BitVec 9) (offset : Nat) (row : Row)
  | hostRead (port : Port) (window : BitVec 9) (offset : BitVec 36) (rows : Nat)
  | hostEntry (window : Epid) (rows : List Row)
  | packet (port : Port) (remote : Option (BitVec 12)) (head : BitVec 1024) (rows : List PRow)
  | idleFlit (port : Port) (ack : BitVec 12) (credits : Nat)
  | replayFlit (port : Port) (expected : BitVec 12)
  | resent (port : Port) (seqs : List (BitVec 12))
  | syncResp (port : Port) (t1 t2 t3 : BitVec 128)
  | setResp (port : Port) (status : BitVec 4)
  | control (port : Port) (request : BitVec 8)
  | reply (port : Port) (tag : BitVec 16) (status : Nat) (words : List Word)
  | bus (byte : Nat) (value : Word)
  | busNak
  | datagram (header : List Word) (entries : List (List Word))
  | mgtReply (f : MgtFrame)
  | service (status index : Nat) (words : List Word)
  deriving DecidableEq, Repr

/-- State of a host-link port (R533). -/
inductive PortState where
  | untrained | training | up | fenced
  deriving DecidableEq, Repr

/-- A host-link port (R501, R505, R513 to R518, R533): training, by lane the corrected (2 l) and uncorrectable (2 l + 1) codewords, lanes, flit sequences, replay buffer, credits; packets that wait
for credits or buffer space, when the acknowledged sequence last advanced (R517), the flits that the link block holds (R519),
and by lane when its last uncorrectable codewords came, at most 17 (R506). -/
structure LinkPort where
  state    : PortState
  locked   : BitVec 2
  lanes    : BitVec 2
  savedSet : Bool
  retrains : BitVec 5
  replRecv : BitVec 32
  replSent : BitVec 32
  refLane  : Bool
  txSeq    : BitVec 12
  buffer   : List (BitVec 12)
  rxExp    : BitVec 12
  asked    : Bool
  ackOwed  : Bool
  tries    : Nat
  credits  : Nat
  toReturn : Nat
  lastSync : Option Tick
  outRows  : Nat
  trained  : Bool
  fallback : Option Nat
  txq      : List Out
  lastAdv  : Tick
  fec      : Tbl (BitVec 32)
  block    : List (List HostPacket)
  unc      : Tbl (List Tick)
  deriving DecidableEq, Repr

/-- A ring (R541, R542): its set-up fields and indices, which are the doorbell values held for it (R532). -/
structure Ring where
  enable : Bool
  window : BitVec 9
  offset : BitVec 36
  mask   : BitVec 32
  port   : BitVec 5
  log2   : BitVec 5
  prod   : BitVec 32
  cons   : BitVec 32
  deriving DecidableEq, Repr

/-- States of a descriptor (R559), with those decided and waiting for their completion. -/
inductive DState where
  | fetched | delivering | running | gated | decided (status : Nat) (reason : Nat)
  deriving DecidableEq, Repr

/-- A fetched descriptor of a submission ring (R547, R559); `first` numbers its first sample from the placement's start and
`accept` is the K-cycle of that sample's acceptance, `rows` are its
output rows received and `sent` those that have left the output stage (R321). -/
structure Desc where
  index   : BitVec 32
  words   : BitVec 512
  checked : Bool
  state   : DState
  n       : Nat
  seq     : Word
  tag     : Word
  tag0    : Nat
  first   : Nat
  accept  : Option Nat
  inAcks  : Nat
  rows    : List Nat
  sent    : List Nat
  lastOut : Option Tick
  outAcks : Nat
  poison  : Bool
  hostBad : Bool
  decided : Tick
  deriving DecidableEq, Repr

/-- The sequence record of a submission ring (R567). -/
structure SeqRec where
  high : Option Word
  set  : List Word
  deriving DecidableEq, Repr

/-- A fetched command of ring 8 (R572). -/
structure Cmd where
  index : BitVec 32
  words : BitVec 512
  started : Bool
  deriving DecidableEq, Repr

/-- State of a placement number (R84, R559, R572, R778). -/
inductive PState where
  | absent | loaded | running | stopped | recovering | napping
  deriving DecidableEq, Repr

/-- A drain in progress (R321): its kind, the T tick and K-cycle limit of its forced stop, and why it runs. -/
structure DrainSt where
  fault  : Bool
  start  : Tick
  limit  : Nat
  unload : Bool
  deriving DecidableEq, Repr

/-- A placement (R62 to R90): the image it was loaded from, its counters, by region the K-cycles of the clock lowering in
force (R75), the number of the next sample delivered, the descriptors
delivered by first sample and count, for each intake entry the samples accepted, the counter before the descriptor being accepted and
the K-cycle of the last acceptance (R60), the samples that have left its output stage, watchdog and drain; when a recovery from
NOPROGRESS resumed it (R757); the T tick in which its start bundles were armed (R325); the pairs
of a unit and a spare that the load checked (R288); the values and the sample tag of the last LAPTAG (R310); how
many rows each intake entry has received (R550); the check of
loam copy B and the units left with one copy (R481). -/
structure Placement where
  state    : PState
  img      : Option Image
  strict   : Bool
  start    : Tick
  siltE    : Tbl (BitVec 32)
  siltK    : Tbl (BitVec 48)
  lowK     : Tbl Nat
  idle     : BitVec 48
  hold     : BitVec 48
  flagged  : BitVec 48
  special  : BitVec 48
  committed : Word
  discarded : Word
  changed  : Bool
  lastEvent : Tick
  nextSample : Nat
  batches  : List (Nat × Nat)
  acceptN  : Tbl Nat
  acceptT  : Tbl (BitVec 32)
  acceptK  : Tbl Nat
  left     : Nat
  watchdog : Nat
  drain    : Option DrainSt
  gatesShut : Bool
  held     : Bool
  resumedAt : Option Tick
  armed    : Option Tick
  checked  : List (Site × Site)
  lapTag   : Option (Word × Option (BitVec 14))
  intakePos : Tbl Nat
  copyB    : Option Bool
  loamOne  : List Epid
  protects : Bool
  deriving DecidableEq, Repr

end Sys2Proof.Machine
end

