-- ==== Sys2Proof/Machine/ModuleTypes.lean ====
section
/-! DEFINITION. The state of the module level: fuses, clocks and time (R579 to R607), power (R612 to R653), bring-up and
seating (R657 to R689), checking (R691 to R732), recovery (R747 to R778), reports (R780 to R802), exam and life cycle
(R804 to R824), keys and firmware (R825 to R860), sideband (R865 to R884). -/

namespace Sys2Proof.Machine

/-- The fuses (R657, R8). `share` by kind * 32 + region; `mcoreMap` the fused skip words by M-core; `bad` the bad-unit
map by site; `vSites` by region the V-core
sites, site (column c, row w) of the unmirrored floor in bit 20 w + c; `order` the spare order by kind * 32 + region; `blown` the bits that
FUSE_PROGRAM has blown (R835), effective at the next start; `arrayBad` the dies whose fuse array fails its check (R659). -/
structure Fuses where
  moduleId  : BitVec 128
  life      : BitVec 3
  returns   : BitVec 2
  coreGrade : Nat
  memGrade  : Nat
  linkGrade : Nat
  revision  : Byte
  share     : Tbl Nat
  bad       : List Site
  vSites    : Tbl (BitVec 400)
  order     : Tbl (List Site)
  maps      : Tbl (Word × Word)
  trims     : Tbl Nat
  rails     : Tbl Nat
  arrayBad  : BitVec 8
  blown     : List (Byte × BitVec 16 × Word)
  deriving DecidableEq, Repr

/-- State of the root PLL as CLK_TPORT shows it (R592). -/
inductive ClkState where
  | locking | locked | handover | coast
  deriving DecidableEq, Repr

/-- Clocks and module time (R579 to R607). -/
structure Clock where
  fio       : Bool
  fineTrim  : Bool
  state     : ClkState
  gated     : Bool
  onG       : Bool
  choice    : Bool
  chosen    : Port
  timing    : Port
  losses    : BitVec 16
  handovers : BitVec 16
  uncertain : Bool
  safe      : Bool
  waitLock  : Option Tick
  master    : Tick
  dies      : Tbl (BitVec 64)
  setOk     : Bool
  deriving DecidableEq, Repr

/-- Power states (R616). -/
inductive PowerState where
  | off | recess | startup | run | nap | save
  deriving DecidableEq, Repr

/-- Wake sources as PRC_WAKESRC codes them (R639). -/
inductive WakeSrc where
  | powerOn | twoWire | link | brownOut | watchdog | saveResume
  deriving DecidableEq, Repr

/-- The record of a save (R643, R644): the slot's validity, its start mark, its sequence and the saved items. -/
structure SaveSlot where
  valid   : Bool
  mark    : Option Nat
  seq     : Nat
  time    : Tick
  counter : Word
  exam    : List Word
  tail    : List (List Word)
  detained : List (Site × Nat × Nat)
  trims   : Tbl Nat
  rails   : Tbl Nat
  deltas  : List (Site × Site)
  deriving DecidableEq, Repr

/-- A request in progress through PWR_STATE (R642). -/
inductive PwrPhase where
  | startup | run | enteringNap | nap | leavingNap | shuttingDown
  deriving DecidableEq, Repr

/-- Power and wake (R612 to R653, R875 to R884). `waveSub` is, by region, 0 before its wave slot, then 1 more than the
sub-waves done; a region's rail is up at 6. -/
structure Power where
  state    : PowerState
  phase    : PwrPhase
  request  : BitVec 2
  armed    : Bool
  waveSub  : Tbl Nat
  waveAt   : Option Tick
  wavesEnd : Bool
  railOff  : BitVec 32
  unreg    : Bool
  selfRef  : Bool
  wakeEn   : BitVec 2
  wakeAddr : BitVec 7
  wakes    : BitVec 8
  wakePort : BitVec 5
  wakeSrc  : WakeSrc
  latched  : Option (WakeSrc × BitVec 5)
  mainSag  : Bool
  saveCause : BitVec 2
  saveRes  : BitVec 2
  saveSlot : Bool
  saveDur  : BitVec 11
  saving   : Option (Tick × Bool × BitVec 2)
  slotA    : SaveSlot
  slotB    : SaveSlot
  t0Save   : Bool
  t0Period : BitVec 16
  t0Start  : Tick
  trip     : Option Tick
  pgIn     : Bool
  linkRst  : Bool
  runMark  : Bool
  tripsRecorded : Bool
  deriving DecidableEq, Repr

/-- A unit's standing after roll call and in service (R679, R683). -/
inductive UnitState where
  | good | fusedBad | fieldDefect | rollFail | regionFenced
  deriving DecidableEq, Repr

/-- Modes of an edge link (R668). -/
inductive LinkMode where
  | full | half | disabled
  deriving DecidableEq, Repr

/-- The saved settings of an HBM channel (R674): its pins' timing, its repair map, and the stack's temperature in steps of 0.125 °C. -/
structure ChanSettings where
  timing  : Word
  repairs : List Nat
  temp    : Int
  deriving DecidableEq, Repr

/-- The training settings that MRAM holds (R4, R504, R661, R674): of lane l of port n at 2 n + l, of an edge link by its key, of channel c of
tile t at 2 t + c; absent where there are none or they are no longer valid. -/
structure Settings where
  lanes : Tbl (Option Word)
  links : Tbl (Option Word)
  chans : Tbl (Option ChanSettings)
  deriving DecidableEq, Repr

/-- Bring-up and seating (R659 to R689): phase, start kind, grade, unit states, spares, units that a reseat moved off their site
and that wait for a micro-quiz (R771), seating deltas, edge links. -/
structure BringUp where
  phase    : BitVec 4
  kind     : BitVec 2
  below    : Bool
  accepted : Bool
  cause    : BitVec 4
  inconsistent : BitVec 32
  fencedUnits : BitVec 16
  readyMs  : BitVec 16
  startTick : Tick
  halfLinks : BitVec 8
  offLinks : BitVec 8
  tilesFenced : BitVec 8
  savedBad : BitVec 8
  savedOk  : Bool
  saved    : Settings
  units    : Tbl UnitState
  failed   : List Site
  rolled   : Bool
  seat     : List (Site × Site)
  spares   : List Site
  waiting  : List Site
  regionsOut : BitVec 32
  diesOut  : BitVec 8
  service2 : BitVec 32
  links    : Tbl LinkMode
  examOk   : Bool
  deriving DecidableEq, Repr

/-- A detained unit (R727 to R732). -/
structure Detained where
  unit  : Site
  out   : Bool
  clean : Nat
  fails : Nat
  action : BitVec 2
  since : Tick
  lastQuiz : Tick
  deriving DecidableEq, Repr

/-- An arbitration record of a service tile (R698): the unit and its fault record, the tag of the sample served, the stage's lag, the
operation's issue offset in K-cycles from the acceptance of the descriptor's first sample (R701), the original result as rows, and the
checker's values. -/
structure ArbRec where
  unit : Site
  code : Byte
  rec0 : Word
  rec1 : Word
  tag  : BitVec 14
  lag  : Nat
  offset : Nat
  orig : List Row
  check : List Int
  deriving DecidableEq, Repr

/-- A micro-quiz that runs (R721): the segments done, and whether an answer of its fixed part was wrong. -/
structure Quiz where
  done : Nat
  bad  : Bool
  deriving DecidableEq, Repr

/-- A fence that is decided (R31): its unit, when it was decided, and the kind of the report card entry that it makes (R783), none where
another entry of its fault records it (R50). -/
structure FenceDue where
  unit : Site
  at_  : Tick
  kind : Option Nat
  deriving DecidableEq, Repr

/-- Checking (R695 to R732). `points` by site: 24 hourly buckets, newest first; `toFence` the units that the margin loop
or a third failure has decided to fence, with the time; `marginFor` the unit that each margin clock step in force serves (R713); `lowered` the clock step by region whose slip event is counted (R72). -/
structure Check where
  enables  : BitVec 6
  void     : Bool
  arbCount : BitVec 16
  wholeCount : BitVec 16
  suspects : BitVec 16
  suspRes  : BitVec 2
  suspId   : Epid
  maxTrim  : BitVec 4
  maxClock : BitVec 2
  cap      : BitVec 16
  inPower  : BitVec 16
  ceiling  : BitVec 16
  points   : Tbl (List Nat)
  trims    : Tbl Nat
  rails    : Tbl Nat
  marginFor : List Site
  limitClk : Tbl Nat
  limitOrder : List Region
  lastLower : Tick
  lastFree : Tick
  inputHold : Bool
  lowered  : Tbl Nat
  detained : List Detained
  toFence  : List FenceDue
  arb      : List ArbRec
  quizzed  : List Site
  quizzes  : Tbl Quiz
  seeded   : List (Site × BitVec 32 × Word)
  rotation : Nat
  hour     : Nat
  deriving DecidableEq, Repr

/-- A fault that a recovery handles (R750, R752): its report's parts, with the operation class and opcode of R784;
and whether it is reported as a program fault (R310). -/
structure FaultEv where
  code : Byte
  unit : Site
  stamp : Tick
  rec0 : Word
  rec1 : Word
  action : Nat := 0
  flags : Nat := 0
  cls : Nat := 0
  opc : Nat := 0
  program : Bool := false
  deriving DecidableEq, Repr

/-- What a report card entry tells of its event (R782), before the module adds sequence, readings and CRC. -/
structure EntryIn where
  kind   : Nat
  code   : Nat := 0
  level  : Nat := 0
  stamp  : Tick
  unit   : Option Nat := none
  subst  : Option Nat := none
  cls    : Nat := 0
  opc    : Nat := 0
  pc     : Nat := 0
  slot   : Nat := 0
  plc    : Option Nat := none
  syn    : Word := 0
  action : Nat := 0
  flags  : Nat := 0
  rseq   : Nat := 0
  deriving DecidableEq, Repr

/-- A recovery in progress (R747 to R756). `step` is the step now issued; `acked` whether its executor has finished; `faults`
the faults still to be decided and `settled` those decided (R787); `unit` the unit that a planned recovery takes out; `subst`
the units and their substitutes; `repair` the M-cores whose arrays were repaired; `vote` the outcome of arbitration. -/
structure Recovery where
  seq     : BitVec 16
  step    : BitVec 8
  attempt : BitVec 8
  cause   : BitVec 8
  issued  : Tick
  faults  : List FaultEv
  settled : List FaultEv
  unit    : Option Site
  subst   : List (Site × Site)
  repair  : List Site
  flipSet : Bool
  vote    : Option VoteResult
  acked   : Bool
  planned : Bool
  kind    : Option Nat
  deriving DecidableEq, Repr

/-- Recovery of the module (R741 to R778); `done` the steps recorded as done (R751), `ueRows` the HBM rows that have raised
HBM_UE since they became damaged (R455). -/
structure Recov where
  raised  : List FaultEv
  runs    : Tbl (Option Recovery)
  nextSeq : BitVec 16
  done    : List (BitVec 16 × BitVec 8)
  lastAck : Tbl (BitVec 32)
  count   : Tbl (BitVec 32)
  interr  : Tbl (BitVec 32)
  detect  : Tbl (BitVec 64)
  causes  : Tbl (BitVec 8)
  reqAct  : BitVec 3
  reqUnit : Epid
  reqId   : BitVec 32
  lastId  : BitVec 32
  result  : BitVec 2
  refusal : BitVec 6
  fenced  : Tbl Nat
  ueRows  : List Nat
  deriving DecidableEq, Repr

/-- The report card and its routes (R780 to R802). An entry is its eight words. -/
structure Report where
  next    : BitVec 32
  tail    : List (List Word)
  card    : Tbl (List Word)
  moved   : Nat × Nat
  stamp   : Tick
  fdm     : List Site
  route   : BitVec 2
  perGram : BitVec 8
  flush   : BitVec 8
  collect0 : Word
  collect1 : Word
  collect2 : Word
  queue   : List (List Word)
  lastGram : Option Tick
  losses  : BitVec 32
  sent    : BitVec 32
  gramSeq : BitVec 32
  overflow : BitVec 32
  badSlots : BitVec 32
  rdIdx   : BitVec 32
  rdRes   : BitVec 2
  rdData  : List Word
  temps   : Tbl Int
  stackTemps : Tbl Int
  volts   : Tbl Nat
  procTemp : Int
  deriving DecidableEq, Repr

/-- Exam, life cycle and test access (R815 to R824). -/
structure Exam where
  skip    : Bool
  status  : List Word
  pending : BitVec 3
  pendKey : Option (BitVec 256)
  raw     : Bool
  fdmConf : BitVec 32
  fdmCount : BitVec 16
  fdmRes  : BitVec 2
  shutdown : BitVec 3
  deriving DecidableEq, Repr

/-- One area of proctor SRAM (R845): an image's header block and body, and its firmware measurement (R840). -/
structure Firmware where
  head    : BitVec 32768
  body    : List Row
  measure : BitVec 512
  deriving DecidableEq, Repr

/-- Keys, authenticated commands and firmware (R825 to R860). -/
structure Secure where
  key     : Option (BitVec 256)
  epoch   : BitVec 32
  counter : Word
  result  : Byte
  detail  : Byte
  opcode  : Byte
  tagFails : BitVec 8
  holdTill : Option Tick
  floor   : BitVec 32
  slotFloor : BitVec 2
  fwRunning : Option Firmware
  fwStaged : Option Firmware
  fwVerified : Bool
  fwReq   : Word
  fwRes   : Byte
  waiting : Option (BitVec 32 × BitVec 2)
  updates : BitVec 8
  attest  : Word
  nonce   : BitVec 256
  deriving DecidableEq, Repr

/-- Sideband, management port and alert (R865 to R884), and HBM_TBL shadows' marker (R903). -/
structure Sideband where
  strap   : BitVec 2
  target  : BitVec 7
  pecReq  : Bool
  pointer : BitVec 32
  status  : Byte
  cfg     : List Word
  synced  : Bool
  dropped : BitVec 32
  cause   : BitVec 8
  mask    : BitVec 8
  lastRead : Option Tick
  deriving DecidableEq, Repr

/-- An export job in progress (R486, R490). -/
structure ExportJob where
  job    : BitVec 32
  stripe : Nat
  deriving DecidableEq, Repr

end Sys2Proof.Machine
end

