-- ==== Sys2Proof/Machine/Defaults.lean ====
section
/-! DEFINITION. What an unlisted key of each sparse table reads as, and every part of the state at its reset value:
the value of the spec's field maps where they give one, otherwise the value of assumption 2. -/

namespace Sys2Proof.Machine

def pval0 : PVal := { v := 0, p := false }
def vreg0 : VReg := { v := 0, p := 0 }

/-- A channel in the off role (R403). -/
def chan0 : Chan :=
  { entry := 0, sendState := .ready, recvState := .opened, paused := false, gen := 0, seen := false, nextSeq := 0, lastRef := 0,
    inFlight := 0, wo := 0, ro := 0, used := 0, delivered := 0, expected := 0, cDelivered := 0, cDropped := 0,
    cStalled := 0 }

/-- A core that no placement has loaded: stopped, every register 0 (assumption 2). -/
def core0 : Core :=
  { profile := .s, run := .stopped, plc := none, gpr := [], win := [], vec := [], slots := [], chans := [], flags := 0,
    fcode := 0, fcount := 0, frec0 := 0, frec1 := 0, counters := [], sig := 0, pc := 0, cycle := 0, startTick := 0,
    pstate := false, pend := [], forming := [], held := none, dmaIn := [], dues := [], asked := [], drainOut := [], istore := [], istoreErrs := [], startPc := 0,
    bounds := [], lag := 0, lost := 0, strict := false, guards := [], arrived := [], readable := [], passes := [], outPorts := [], inRings := [],
    corrected := 0, scrub := 0, scrubAt := none, logical := none }

/-- An EMPTY tally (R196). -/
def tally0 : Tally := { q := 0, w := 0, f := false, sp := .fin }
def tslot0 : TSlot := { live := false, lanes := [], chk := tally0, pois := false }
/-- The zero tile of R918, which matches every rate class. -/
def zeroTile : Tile2 := { fmt := none, rows := [], scales := [], pois := false }

/-- MAT_FEEDMAP of an unrepaired array (R191): row groups skip index 32, column groups index 64. -/
def feedMap0 : Word := BitVec.ofNat 64 ((List.range 8).foldl (fun a g => a + 32 * 2 ^ (6 * g)) 0)
def feedMap1 : Word := BitVec.ofNat 64 ((List.range 4).foldl (fun a g => a + 64 * 2 ^ (7 * g)) 0)

def mcore0 : MCore :=
  { feedQ := [], arrayQ := [], mvQ := [], drainQ := [], checkQ := [], reads := [], got := [], portCyc := 0, dones := [], fifo := [], active := zeroTile, shadow := zeroTile,
    ldw := none,
    swapped := false, busyTill := 0, pass := none, mismatch := false, flight := [], bank0 := [], bank1 := [], mvSlots := [],
    mvJobs := [], mvBad := [], half := none, sent := 0, owner := false, mvOpen := none, map0 := feedMap0, map1 := feedMap1, weakened := 0, specials := 0, arrayBad := [] }

def endpoint0 : Endpoint := { flows := [], recs := [], ops := [], ctxs := [], outq := [], nextOp := 0, cnt := [] }
def switch0 : Switch := { dq := [], tq := [], el := [], out := [] }
def tblDesc0 : TblDesc := { w0 := 0, w1 := 0, hold := 0 }
def tile0 : PortTile := { damaged := [], corr := [], tables := [], bank := [], scrub := 0 }
def tables0 : Tables := { written := false, route := [], ports := 0, outs := [], hostPort := none, inject := [], remote := [] }
def store0 : Store := { cells := [], poison := [], errs := [] }

/-- The fabric at reset: FAB_EPOCH 0 (R347); FAB_RSTO 16 and 8 (R381). -/
def fabric0 : Fabric :=
  { tab0 := tables0, tab1 := tables0, active := false, pending := false, retiring := false, flipTime := 0,
    flippedAt := 0, want := none, rstoRemote := 16, rstoLocal := 8, drainFrom := none, flight := [], eps := [], turns := [], routerErrs := [], routersUe := [] }

def port0 : LinkPort :=
  { state := .untrained, locked := 0, lanes := 0, savedSet := false, retrains := 0, replRecv := 0, replSent := 0,
    refLane := false, txSeq := 0, buffer := [], rxExp := 0, asked := false, ackOwed := false, tries := 0, credits := 0,
    toReturn := 0, lastSync := none, outRows := 0, trained := false, fallback := none, txq := [], lastAdv := 0, fec := [], block := [], unc := [] }

/-- HIF_RING at reset (R542). -/
def ring0 : Ring :=
  { enable := false, window := 0, offset := 0, mask := 0, port := 0, log2 := 0, prod := 0, cons := 0 }
def seqRec0 : SeqRec := { high := none, set := [] }

def plc0 : Placement :=
  { state := .absent, img := none, strict := false, start := 0, siltE := [], siltK := [], lowK := [], idle := 0,
    hold := 0, flagged := 0, special := 0, committed := 0, discarded := 0, changed := false, lastEvent := 0,
    nextSample := 0, batches := [], acceptN := [], acceptT := [], acceptK := [], left := 0, watchdog := 0, drain := none, gatesShut := false, held := false, resumedAt := none,
    armed := none, checked := [], lapTag := none, intakePos := [], copyB := none, loamOne := [], protects := false }

/-- The V-core sites of a region whose inventory is not listed (assumption 3): columns 1 to 18 of rows 4 to 7 of the
unmirrored floor, 72 sites. -/
def vMask0 : BitVec 400 :=
  BitVec.ofNat 400 ((2 ^ 18 - 1) * 2 ^ 81 + (2 ^ 18 - 1) * 2 ^ 101 + (2 ^ 18 - 1) * 2 ^ 121 + (2 ^ 18 - 1) * 2 ^ 141)

/-- The fuses of an SVM-K10-M2048-L32-A module without a defect (assumption 3). -/
def fuses0 : Fuses :=
  { moduleId := 1, life := 2, returns := 0, coreGrade := 10, memGrade := 64, linkGrade := 32, revision := 0x41,
    share := [], bad := [], vSites := [], order := [], maps := [], trims := [], rails := [], arrayBad := 0, blown := [] }

/-- CLK_TPORT at reset (R592). -/
def clock0 : Clock :=
  { fio := false, fineTrim := false, state := .locking, gated := true, onG := false, choice := false, chosen := 0,
    timing := 0, losses := 0, handovers := 0, uncertain := true, safe := true, waitLock := none, master := 0, dies := [],
    setOk := false }

def saveSlot0 : SaveSlot :=
  { valid := false, mark := none, seq := 0, time := 0, counter := 0, exam := [0, 0, 0, 0, 0, 0, 0, 0], tail := [],
    detained := [], trims := [], rails := [], deltas := [] }

/-- Power at reset: off; PRC_WAKECFG, PRC_T0 and PWR_STATE at their reset values (R638, R642, R653). -/
def power0 : Power :=
  { state := .off, phase := .startup, request := 0, armed := false, waveSub := [], waveAt := none, wavesEnd := false,
    railOff := 0, unreg := false, selfRef := false, wakeEn := 3, wakeAddr := 0x4B, wakes := 0, wakePort := 0,
    wakeSrc := .powerOn, latched := none, mainSag := false, saveCause := 0, saveRes := 0, saveSlot := false,
    saveDur := 0, saving := none, slotA := saveSlot0, slotB := saveSlot0, t0Save := false, t0Period := 1000, t0Start := 0,
    trip := none, pgIn := true, linkRst := true, runMark := false, tripsRecorded := false }

/-- BRG_STATUS at reset (R689). -/
def bringUp0 : BringUp :=
  { phase := 0, kind := 0, below := false, accepted := false, cause := 0, inconsistent := 0, fencedUnits := 0,
    readyMs := 0, startTick := 0, halfLinks := 0, offLinks := 0, tilesFenced := 0, savedBad := 0, savedOk := false, saved := { lanes := [], links := [], chans := [] },
    units := [], failed := [], rolled := false, seat := [], spares := [], waiting := [], regionsOut := 0, diesOut := 0, service2 := 0,
    links := [], examOk := false }

/-- CHK_CTRL, CHK_MARGIN, PWR_CAP at reset (R695, R714, R718). -/
def check0 : Check :=
  { enables := 0x3F, void := false, arbCount := 0, wholeCount := 0, suspects := 0, suspRes := 0, suspId := 0,
    maxTrim := 8, maxClock := 2, cap := 5400, inPower := 0, ceiling := 5400, points := [], trims := [], rails := [],
    marginFor := [], limitClk := [], limitOrder := [], lastLower := 0, lastFree := 0, inputHold := false, lowered := [], detained := [], toFence := [],
    arb := [], quizzed := [], quizzes := [], seeded := [], rotation := 0, hour := 0 }

def recov0 : Recov :=
  { raised := [], runs := [], nextSeq := 1, done := [], lastAck := [], count := [], interr := [], detect := [], causes := [],
    reqAct := 0, reqUnit := 0, reqId := 0, lastId := 0, result := 0, refusal := 0, fenced := [], ueRows := [] }

/-- RPT_ROUTE, RPT_COLLECT, RPT_STATUS at reset (R793, R799, R801). -/
def report0 : Report :=
  { next := 0, tail := [], card := [], stamp := 0, fdm := [], route := 0, perGram := 16, flush := 10, collect0 := 0,
    collect1 := 0, collect2 := 0, queue := [], lastGram := none, losses := 0, sent := 0,
    gramSeq := 0, overflow := 0, moved := (0, 0), badSlots := 0, rdIdx := 0, rdRes := 0, rdData := [0, 0, 0, 0, 0, 0, 0, 0], temps := [],
    stackTemps := [], volts := [], procTemp := 0 }

def exam0 : Exam :=
  { skip := false, status := [0, 0, 0, 0, 0, 0, 0, 0], pending := 7, pendKey := none, raw := false, fdmConf := 0,
    fdmCount := 0, fdmRes := 0, shutdown := 0 }

def secure0 : Secure :=
  { key := some 0, epoch := 1, counter := 0, result := 0, detail := 0, opcode := 0, tagFails := 0, holdTill := none,
    floor := 0, slotFloor := 0, fwRunning := none, fwStaged := none, fwVerified := false, fwReq := 0, fwRes := 0, waiting := none,
    updates := 0, attest := 0, nonce := 0 }

/-- MGT_SMB at 0x4C plus the open straps, MGT_CFG and MGT_ALERT at reset (R870, R874, R878, R879): clause 37
auto-negotiation is 1. -/
def sideband0 : Sideband :=
  { strap := 3, target := 0x4F, pecReq := false, pointer := 0, status := 0,
    cfg := [0x1000000000000000, 0, 0, 0, 0, 0], synced := false, dropped := 0, cause := 0, mask := 0,
    lastRead := none }

end Sys2Proof.Machine
end

