-- ==== Sys2Proof/Machine/State.lean ====
section
/-! DEFINITION. The state of the module (INVENTORY.md, '## State'), the reasons a step can stop, and the machine right
after reset. -/

namespace Sys2Proof.Machine

/-- Why the machine stops with a fault. -/
inductive Fault where
  /-- An address that the spec says does not exist. No meaning raises it: the spec answers every such address itself, by
  a core fault (R118), a code of the fabric (R385) or a port tile (R474), or a register status (R895). Safe. -/
  | addressHole
  deriving DecidableEq, Repr

/-- Why a command has no meaning. -/
inductive Refusal where
  /-- The command of this mnemonic has no meaning yet. Raised by exec's own arms alone. Safe. -/
  | notModelled (mnemonic : String)
  deriving DecidableEq, Repr

/-- The module: plain data. Sparse tables list what differs from their defaults (Defaults.lean). -/
structure State where
  /-- The commands that wait, first in, first out. -/
  pending   : List Instr
  /-- The MODEL's own counter, read and advanced where a fresh free value is taken (assumption 5). -/
  free      : Nat
  fuses     : Fuses
  clk       : Clock
  pwr       : Power
  brg       : BringUp
  chk       : Check
  rcv       : Recov
  rpt       : Report
  exm       : Exam
  sec       : Secure
  sbd       : Sideband
  fab       : Fabric
  ports     : Tbl LinkPort
  rings     : Tbl Ring
  descs     : Tbl (List Desc)
  seqs      : Tbl SeqRec
  cmds      : List Cmd
  evDropped : BitVec 32
  plcs      : Tbl Placement
  cores     : Tbl Core
  mcores    : Tbl MCore
  scratch   : Store
  hbm       : Store
  tiles     : Tbl PortTile
  switches  : Tbl Switch
  segs      : List Seg
  sched     : Tbl (BitVec 16)
  passDir   : List (BitVec 16 × Epid)
  xport     : Option ExportJob
  /-- What has left the module, oldest first. -/
  out       : List Out
  deriving DecidableEq, Repr

/-- The module right after reset: off, every register at the value its field map gives, memories with nothing listed. -/
def State.reset : State :=
  { pending := [], free := 0, fuses := fuses0, clk := clock0, pwr := power0, brg := bringUp0, chk := check0, rcv := recov0,
    rpt := report0, exm := exam0, sec := secure0, sbd := sideband0, fab := fabric0, ports := [], rings := [],
    descs := [], seqs := [], cmds := [], evDropped := 0, plcs := [], cores := [], mcores := [], scratch := store0,
    hbm := store0, tiles := [], switches := [], segs := [], sched := [], passDir := [], xport := none,
    out := [] }

end Sys2Proof.Machine
end

