-- ==== Sys2Proof/Machine/Tbl.lean ====
section
/-! DEFINITION. Sparse tables and memories of bytes: reading, writing, and their canonical form (assumption 4). -/

namespace Sys2Proof.Machine

/-- The value at a key; an unlisted key reads as the table's default. -/
def tget {α : Type} (d : α) : Tbl α → Nat → α
  | [], _ => d
  | (k', v) :: t, k => if k' = k then v else tget d t k

/-- The entry at a key, if the table lists it. -/
def tfind {α : Type} : Tbl α → Nat → Option α
  | [], _ => none
  | (k', v) :: t, k => if k' = k then some v else tfind t k

/-- A table without a key. -/
def tdel {α : Type} : Tbl α → Nat → Tbl α
  | [], _ => []
  | (k', v) :: t, k => if k' = k then t else if k < k' then (k', v) :: t else (k', v) :: tdel t k

/-- A table with a key listed. -/
def tput {α : Type} : Tbl α → Nat → α → Tbl α
  | [], k, x => [(k, x)]
  | (k', v) :: t, k, x =>
    if k' = k then (k, x) :: t else if k < k' then (k, x) :: (k', v) :: t else (k', v) :: tput t k x

/-- Writing a key; writing the default removes the entry, so that equal tables are equal data. -/
def tset {α : Type} [DecidableEq α] (d : α) (t : Tbl α) (k : Nat) (x : α) : Tbl α :=
  if x = d then tdel t k else tput t k x

/-- Changing one entry. -/
def tmod {α : Type} [DecidableEq α] (d : α) (t : Tbl α) (k : Nat) (f : α → α) : Tbl α :=
  tset d t k (f (tget d t k))

/-- Changing every listed entry. -/
def tmap {α : Type} [DecidableEq α] (d : α) (f : Nat → α → α) (t : Tbl α) : Tbl α :=
  t.foldl (fun acc e => tset d acc e.1 (f e.1 e.2)) t

/-- Every listed key is above a bound and rising, and no listed value is the default. -/
def tblWfFrom {α : Type} [DecidableEq α] (d : α) : Option Nat → Tbl α → Bool
  | _, [] => true
  | b, (k, v) :: t =>
    (match b with | none => true | some b => decide (b < k)) && decide (v ≠ d) && tblWfFrom d (some k) t

/-- The canonical form of a table. -/
def tblWf {α : Type} [DecidableEq α] (d : α) (t : Tbl α) : Bool := tblWfFrom d none t

/-- What an unlisted byte of a memory reads as (assumption 6). -/
def unlistedByte : Byte := 0

/-- One byte of a memory. -/
def memByte (m : List Host.Cell) (a : Nat) : Byte := tget unlistedByte m a

/-- The canonical form of a memory of bytes. -/
def Memory.wf (m : List Host.Cell) : Bool := tblWf unlistedByte m

/-- The value of n bytes from an address up, little-endian (R100): the listed bytes of the range, each in its place. -/
def memRead (m : List Host.Cell) (a n : Nat) : Nat :=
  m.foldl (fun acc c => if a ≤ c.1 ∧ c.1 < a + n then acc + c.2.toNat * 256 ^ (c.1 - a) else acc) 0

/-- The cells of n bytes of a number from an address up, little-endian. -/
def cellsOf (a v : Nat) : Nat → List Host.Cell
  | 0 => []
  | n + 1 =>
    let b := BitVec.ofNat 8 v
    if b = unlistedByte then cellsOf (a + 1) (v / 256) n else (a, b) :: cellsOf (a + 1) (v / 256) n

/-- Writing n bytes of a number from an address up, little-endian (R100): the cells below, the new cells, the cells
above. -/
def memWrite (m : List Host.Cell) (a v n : Nat) : List Host.Cell :=
  m.filter (fun c => decide (c.1 < a)) ++ cellsOf a v n ++ m.filter (fun c => decide (a + n ≤ c.1))

/-- A sorted set of numbers with one more member. -/
def setAdd : List Nat → Nat → List Nat
  | [], k => [k]
  | k' :: t, k => if k' = k then k' :: t else if k < k' then k :: k' :: t else k' :: setAdd t k

/-- A sorted set of numbers without a member. -/
def setDel (l : List Nat) (k : Nat) : List Nat := l.filter (· != k)

/-- Whether a number is in a set. -/
def setHas (l : List Nat) (k : Nat) : Bool := l.any (· == k)

/-- Every number of a list is above a bound and rising. -/
def setWfFrom : Option Nat → List Nat → Bool
  | _, [] => true
  | b, k :: t => (match b with | none => true | some b => decide (b < k)) && setWfFrom (some k) t

/-- The canonical form of a set. -/
def setWf (l : List Nat) : Bool := setWfFrom none l

/-- A list with its entry i replaced. -/
def lset {α : Type} : List α → Nat → α → List α
  | [], _, _ => []
  | _ :: t, 0, x => x :: t
  | y :: t, i + 1, x => y :: lset t i x

/-- A list with its entry i changed. -/
def lmod {α : Type} : List α → Nat → (α → α) → List α
  | [], _, _ => []
  | y :: t, 0, f => f y :: t
  | y :: t, i + 1, f => y :: lmod t i f

/-- A list without its entry i. -/
def ldel {α : Type} : List α → Nat → List α
  | [], _ => []
  | _ :: t, 0 => t
  | y :: t, i + 1 => y :: ldel t i

/-- The first n numbers from a number up. -/
def upFrom (a : Nat) : Nat → List Nat
  | 0 => []
  | n + 1 => a :: upFrom (a + 1) n

end Sys2Proof.Machine
end

