-- ==== Sys2Proof/Machine/Ops.lean ====
section
/-! DEFINITION. Reading and changing the parts of the state; memories of rows with their code; module time; endpoint IDs;
report card entries, events and completions. -/

namespace Sys2Proof.Machine

/-- What a command's meaning answers. -/
abbrev Answer := Host.Outcome State Fault Refusal

/-! ## Parts of the state -/

def getCore (s : State) (u : Nat) : Core := tget core0 s.cores u
def setCore (s : State) (u : Nat) (c : Core) : State := { s with cores := tset core0 s.cores u c }
def modCore (s : State) (u : Nat) (f : Core → Core) : State := setCore s u (f (getCore s u))
def getM (s : State) (u : Nat) : MCore := tget mcore0 s.mcores u
def setM (s : State) (u : Nat) (m : MCore) : State := { s with mcores := tset mcore0 s.mcores u m }
def modM (s : State) (u : Nat) (f : MCore → MCore) : State := setM s u (f (getM s u))
def getEp (s : State) (k : Nat) : Endpoint := tget endpoint0 s.fab.eps k
def setEp (s : State) (k : Nat) (e : Endpoint) : State :=
  { s with fab := { s.fab with eps := tset endpoint0 s.fab.eps k e } }
def modEp (s : State) (k : Nat) (f : Endpoint → Endpoint) : State := setEp s k (f (getEp s k))
def getPlc (s : State) (p : Nat) : Placement := tget plc0 s.plcs p
def setPlc (s : State) (p : Nat) (x : Placement) : State := { s with plcs := tset plc0 s.plcs p x }
def modPlc (s : State) (p : Nat) (f : Placement → Placement) : State := setPlc s p (f (getPlc s p))
def getPort (s : State) (n : Nat) : LinkPort := tget port0 s.ports n
def setPort (s : State) (n : Nat) (x : LinkPort) : State := { s with ports := tset port0 s.ports n x }
def modPort (s : State) (n : Nat) (f : LinkPort → LinkPort) : State := setPort s n (f (getPort s n))
def getRing (s : State) (r : Nat) : Ring := tget ring0 s.rings r
def setRing (s : State) (r : Nat) (x : Ring) : State := { s with rings := tset ring0 s.rings r x }
def getTile (s : State) (t : Nat) : PortTile := tget tile0 s.tiles t
def setTile (s : State) (t : Nat) (x : PortTile) : State := { s with tiles := tset tile0 s.tiles t x }
def modTile (s : State) (t : Nat) (f : PortTile → PortTile) : State := setTile s t (f (getTile s t))
def getSw (s : State) (c : Nat) : Switch := tget switch0 s.switches c
def setSw (s : State) (c : Nat) (x : Switch) : State := { s with switches := tset switch0 s.switches c x }
def getDescs (s : State) (r : Nat) : List Desc := tget [] s.descs r
def setDescs (s : State) (r : Nat) (l : List Desc) : State := { s with descs := tset [] s.descs r l }
def putOut (s : State) (o : Out) : State := { s with out := s.out ++ [o] }

/-- A fresh number for a free value, and the state past it (assumption 5). -/
def bumpFree (s : State) : State := { s with free := s.free + 1 }

/-! ## Time, units and levels -/

/-- Module time at the proctor (R603). -/
def nowT (s : State) : Nat := s.clk.master.toNat
/-- A die's copy of module time (R42): the master count and the copy's difference from it. -/
def dieTime (s : State) (d : Nat) : Nat := (s.clk.master + tget 0 s.clk.dies d).toNat
/-- Module time as a site's die shows it. -/
def timeAt (s : State) (u : Nat) : Nat := dieTime s (dieOf u)

/-- The kind of unit at a site (R19, R20, R683). -/
def kindOf (s : State) (u : Nat) : Option UnitKind :=
  floorKind (bit (tget vMask0 s.fuses.vSites (regionOf u)).toNat (floorRow u * 20 + floorCol u)) u
def isCoreKind : Option UnitKind → Bool
  | some .sCore | some .vCore | some .mCore => true
  | _ => false
def kindCode : Option UnitKind → Nat
  | some .sCore => 0 | some .vCore => 1 | some .mCore => 2 | some .portTile => 3
  | some .spurTile => 4 | some .serviceTile => 5 | some .edgeTile => 6 | none => 7
def profileOf : Option UnitKind → Profile
  | some .vCore => .v
  | some .mCore => .m
  | _ => .s

def unitState (s : State) (u : Nat) : UnitState := tget .good s.brg.units u
/-- Whether a unit is out of service by a fence (R738). -/
def isFenced (s : State) (u : Nat) : Bool := unitState s u != .good

def rowCount : Profile → Nat
  | .s => 128 | .v => 1024 | .m => 32768
def bundleCount : Profile → Nat
  | .m => 1024 | _ => 512
def gprCount : Profile → Nat
  | .m => 32 | _ => 64
/-- R121. -/
def mispredict : Profile → Nat
  | .m => 3 | _ => 4

/-- The margin loop's clock step of a region: one for each unit of it that a step in force serves (R710, R713). -/
def marginClk (s : State) (r : Nat) : Nat := (s.chk.marginFor.filter fun u => regionOf u.val == r).length
/-- A region's core rail in mV (R36) and its clock step, the larger of the two demands (R717). -/
def railOf (s : State) (r : Nat) : Nat := tget 700 s.chk.rails r
def trimOf (s : State) (u : Nat) : Nat := tget 0 s.chk.trims u
def clockStep (s : State) (r : Nat) : Nat := max (marginClk s r) (tget 0 s.chk.limitClk r)

/-! ## Rows and their code (R226 to R228, R913) -/

/-- What a codeword decodes as: its data, whether it is delivered poisoned, whether it counts as corrected, whether it is
uncorrectable and not poisoned, and the free counter after it. -/
structure CwRead where
  data : BitVec 128
  pois : Bool
  corr : Bool
  ue   : Bool
  free : Nat

/-- Decoding one codeword with `n` symbols in error (R227, R913): two symbols are uncorrectable or poisoned, three or more
have any of the four outcomes. -/
def decodeCw (data : BitVec 128) (marked : Bool) (n free : Nat) : CwRead :=
  if n = 0 then { data := data, pois := marked, corr := false, ue := false, free := free }
  else if n = 1 then { data := data, pois := marked, corr := !marked, ue := false, free := free }
  else
    let o := (Config.swcOutcome n free).val
    let o := if n = 2 then o % 2 else o
    if o = 0 then { data := Config.damagedData free, pois := true, corr := false, ue := true, free := free + 1 }
    else if o = 1 then { data := data, pois := true, corr := false, ue := false, free := free + 1 }
    else if o = 2 then { data := Config.damagedData free, pois := false, corr := false, ue := false, free := free + 1 }
    else { data := Config.miscorrected free, pois := false, corr := true, ue := false, free := free + 1 }

/-- What a row read gives. -/
structure RowRead where
  data : Nat
  pois : Nat
  corr : Nat
  ue   : Option Nat
  free : Nat

/-- Decoding a row's codewords one by one, from codeword k up. -/
def decodeCws (st : Store) (cw0 raw k : Nat) (acc : RowRead) : Nat → RowRead
  | 0 => acc
  | n + 1 =>
    let r := decodeCw (BitVec.ofNat 128 (raw >>> (128 * k))) (setHas st.poison (cw0 + k)) (tget 0 st.errs (cw0 + k)) acc.free
    decodeCws st cw0 raw (k + 1)
      { data := acc.data + (r.data.toNat <<< (128 * k)), pois := acc.pois + (ofBool r.pois <<< k),
        corr := acc.corr + ofBool r.corr,
        ue := match acc.ue with | none => (if r.ue then some k else none) | some j => some j, free := r.free } n

/-- The poison marks of the 32 codewords of a row. -/
def rowMarks (st : Store) (cw0 : Nat) : Nat :=
  st.poison.foldl (fun acc k => if cw0 ≤ k ∧ k < cw0 + 32 then acc + 2 ^ (k - cw0) else acc) 0

/-- Decoding a row that has travelled, with symbols in error by codeword (R226, R227, R913). -/
def decodeRow (data : Row) (marks : BitVec 32) (errs : List (Fin 32 × Nat)) (free : Nat) : RowRead :=
  if errs.isEmpty then { data := data.toNat, pois := marks.toNat, corr := 0, ue := none, free := free }
  else
    decodeCws { cells := [], poison := onesFrom marks.toNat 0 32, errs := errs.foldl (fun t e => tset 0 t e.1.val e.2) [] } 0 data.toNat 0
      { data := 0, pois := 0, corr := 0, ue := none, free := free } 32

/-- Whether a row has a codeword with symbols in error. -/
def rowHasErrs (st : Store) (cw0 : Nat) : Bool := st.errs.any (fun e => decide (cw0 ≤ e.1 ∧ e.1 < cw0 + 32))

/-- Reading the row at byte address a of a store (R234, R236). -/
def storeRead (st : Store) (a free : Nat) : RowRead :=
  if rowHasErrs st (a / 16) then
    decodeCws st (a / 16) (memRead st.cells a 512) 0 { data := 0, pois := 0, corr := 0, ue := none, free := free } 32
  else { data := memRead st.cells a 512, pois := rowMarks st (a / 16), corr := 0, ue := none, free := free }

/-- Writing the row at byte address a (R228): poisoned data marks every codeword; errors that the row held are gone. -/
def storeWrite (st : Store) (a data : Nat) (pois : Bool) : Store :=
  { cells := memWrite st.cells a data 512,
    poison := st.poison.filter (fun k => decide (k < a / 16)) ++ (if pois then upFrom (a / 16) 32 else [])
      ++ st.poison.filter (fun k => decide (a / 16 + 32 ≤ k)),
    errs := st.errs.filter (fun e => decide (e.1 < a / 16 ∨ a / 16 + 32 ≤ e.1)) }

/-- Where row r of a site's scratchpad lies in the store of scratchpads. -/
def scratchAddr (u r : Nat) : Nat := u * 2 ^ 24 + r * 512
/-- Where a row address (bits 35:9 of a byte address) of a stack lies in the store of HBM. -/
def hbmAddr (stack row : Nat) : Nat := stack * 2 ^ 36 + row * 512

def scratchRead (s : State) (u r : Nat) : RowRead := storeRead s.scratch (scratchAddr u r) s.free
def scratchWrite (s : State) (u r data : Nat) (pois : Bool) : State :=
  { s with scratch := storeWrite s.scratch (scratchAddr u r) data pois }
/-- One byte of a core's scratchpad as it stands. -/
def scratchByte (s : State) (u a : Nat) : Byte := memByte s.scratch.cells (u * 2 ^ 24 + a)
def hbmWrite (s : State) (stack row data : Nat) (pois : Bool) : State :=
  { s with hbm := storeWrite s.hbm (hbmAddr stack row) data pois }
def hbmByte (s : State) (stack a : Nat) : Byte := memByte s.hbm.cells (stack * 2 ^ 36 + a)

/-! ## Endpoint IDs (R329 to R336, R923) -/

def tabOf (s : State) (e : Bool) : Tables := if e then s.fab.tab1 else s.fab.tab0
def setTab (s : State) (e : Bool) (t : Tables) : State :=
  let errs := s.fab.routerErrs.filter fun x => x.1 / 16384 % 2 != ofBool e
  { s with fab := if e then { s.fab with tab1 := t, routerErrs := errs } else { s.fab with tab0 := t, routerErrs := errs } }
def siteEntry (u : Nat) : BitVec 20 := BitVec.ofNat 20 (2 ^ 19 + siteX u * 128 + siteY u)

/-- What an ID names: a site, or a host-link port (R334). -/
inductive Resolved where
  | site (u : Nat)
  | port (n : Nat)
  deriving DecidableEq, Repr

/-- A routing table entry (R334). -/
def readEntry (e : BitVec 20) : Option Resolved :=
  if !bit e.toNat 19 then none
  else if bit e.toNat 18 then some (.port (bits e.toNat 4 0))
  else some (.site (siteXY (bits e.toNat 14 7) (bits e.toNat 6 0)))

/-- The routing table entry of an ID (R330, R331, R923), read as R334. -/
def lookupId (t : Tables) (id : Nat) : Option Resolved :=
  if !t.written then none
  else if id < 12800 then
    match tfind t.route id with
    | some e => readEntry e
    | none => if inMatrix id ∧ clusterBase id ≠ id then none else some (.site id)
  else if id < 12832 then (if bit t.ports.toNat (id - 12800) then some (.port (id - 12800)) else none)
  else if id < 12840 then (tget none t.outs (id - 12832)).map fun n => .port n.val
  else if id < 16383 then t.hostPort.map fun n => .port n.val
  else none

/-- A port's injection point (R335, R386): its spur tile unless the table says otherwise. -/
def injectSite (t : Tables) (n : Nat) : Option Nat :=
  match tfind t.inject n with
  | some x => x
  | none => if t.written then some (spurSite n) else none

/-- The site that the active epoch gives an ID. -/
def siteOfId (s : State) (id : Nat) : Option Nat :=
  match lookupId (tabOf s s.fab.active) id with
  | some (.site u) => some u
  | _ => none
/-- The place of a router's table entry among all: its cluster, its epoch, its ID. -/
def entryKey (u : Nat) (e : Bool) (id : Nat) : Nat := (gclusterOf u * 2 + ofBool e) * 16384 + id

/-- A lookup in the table of the cluster router of a site (R48, R913): an entry with one symbol in error is corrected, an uncorrectable one
is lost and falls to the region (R47), and a miscorrected one is another entry. -/
def routerLookup (s : State) (u : Nat) (e : Bool) (id : Nat) : State × Option Resolved :=
  let n := tget 0 s.fab.routerErrs (entryKey u e id)
  if n ≤ 1 then (s, lookupId (tabOf s e) id)
  else
    let r := decodeCw 0 false n s.free
    let s := { s with free := r.free }
    if r.pois then ({ s with fab := { s.fab with routersUe := setAdd s.fab.routersUe u } }, none)
    else (s, readEntry (r.data.setWidth 20))

/-- The ID of a site: the one whose entry names it, else its bring-up ID (R330, R332). -/
def idOfSite (s : State) (u : Nat) : Nat :=
  match (tabOf s s.fab.active).route.find? (fun e => e.2 == siteEntry u) with
  | some e => e.1
  | none => u

/-- Port tile j of stack n as stack * 16 + j stands at this site (R444). -/
def tileSite (t : Nat) : Nat := portTileSite (t / 16) (t % 16)
/-- The port tile whose ID, by value, an ID is (R445). -/
def tileOfId (id : Nat) : Option Nat :=
  if id < 12800 ∧ floorKind false id = some .portTile then some (regionOf id * 16 + (floorCol id - 2)) else none

/-- Cores, mesh and HBM have a clock only while the root PLL runs (R3): without it, what they would do does not happen. -/
def clocked (s t : State) : State := if s.clk.gated then s else t

/-! ## Asking for a flip (R341 to R343) -/

/-- The proctor writes changed contents into the inactive epoch and sets the flip time, 2,000 T ticks ahead; while the
retiring epoch may not be written, the contents wait. Changes join a flip that is pending (R755). -/
def requestFlip (s : State) (f : Tables → Tables) : State :=
  let fab := s.fab
  let base := match fab.want with
    | some t => t
    | none => if fab.pending then tabOf s (!fab.active) else tabOf s fab.active
  if fab.retiring then { s with fab := { fab with want := some (f base) } }
  else
    let s := setTab s (!fab.active) (f base)
    { s with fab := { s.fab with pending := true, want := none, flipTime := s.clk.master + 2000 } }

/-! ## Rings as the module writes them (R541, R564, R574, R576) -/

def ringSize (r : Ring) : Nat := 2 ^ r.log2.toNat
def ringUsed (r : Ring) : Nat := (r.prod - r.cons).toNat
def phaseBit (r : Ring) : Nat := (r.prod.toNat / ringSize r + 1) % 2

/-- One event entry on ring 18 (R574), of an enabled ring. -/
def writeEvent (s : State) (kind plc : Nat) (payload : List Word) : State :=
  let r := getRing s 18
  let s1 := putOut s (.event (r.prod.toNat % ringSize r)
    (BitVec.ofNat 64 (fields [(phaseBit r, 63), (kind, 48), (plc, 40)])) s.clk.master ((payload ++ List.replicate 8 0).take 8))
  setRing s1 18 { r with prod := r.prod + 1 }

/-- When two entries are free and events were dropped, a LOST entry goes first (R576). -/
def writeLost (s : State) : State :=
  let r := getRing s 18
  if r.enable ∧ s.evDropped ≠ 0 ∧ ringUsed r + 2 ≤ ringSize r then
    { writeEvent s 0x08 0xFF [BitVec.ofNat 64 s.evDropped.toNat] with evDropped := 0 }
  else s

/-- Posting an event (R574 to R576): dropped and counted unless two entries are free. -/
def postEvent (s : State) (kind plc : Nat) (payload : List Word) : State :=
  let s := writeLost s
  let r := getRing s 18
  if r.enable ∧ ringUsed r + 2 ≤ ringSize r then writeEvent s kind plc payload
  else { s with evDropped := sat32 s.evDropped 1 }

/-- One completion of ring 0 to 8 (R564). -/
def postCompletion (s : State) (ring : Nat) (index : BitVec 32) (status reason : Nat) (w1 w2 : Word) (at_ : Tick) :
    State :=
  let r := getRing s (9 + ring)
  let w0 := fields [(status, 62), (phaseBit r, 61), (reason, 48), (ring, 40), (index.toNat, 0)]
  let s1 := putOut s (.completion (9 + ring) (r.prod.toNat % ringSize r) (BitVec.ofNat 64 w0) w1 w2 at_)
  setRing s1 (9 + ring) { r with prod := r.prod + 1 }

/-- A cause of MGT_ALERT is set (R878). -/
def raiseCause (s : State) (i : Nat) : State :=
  { s with sbd := { s.sbd with cause := s.sbd.cause ||| BitVec.ofNat 8 (2 ^ i) } }

/-! ## Report card entries (R780 to R795) -/

/-- The 8 words of an entry (R782). -/
def entryWords (s : State) (e : EntryIn) : List Word :=
  let u := e.unit.getD 0
  let has := e.unit.isSome
  let r := regionOf u
  let w2 := if has then
      fields [(siteX u, 56), (siteY u, 49), (idOfSite s u, 35), (kindCode (kindOf s u), 32), (r, 27), (dieOf u, 24), (1, 23)]
    else 0
  let w2 := w2 + match e.subst with
    | some v => fields [(siteX v, 15), (siteY v, 8), (1, 7)]
    | none => 0
  let w3 := fields [(e.cls, 60), (e.opc, 52), (e.pc % 1024, 42), (e.slot % 8, 39), (ofBool e.plc.isSome, 38),
    (e.plc.getD 0, 35)]
  let served := if e.plc.isSome && isCoreKind (kindOf s u) then Config.servedSample u e.stamp.toNat else none
  let w3 := w3 + served.elim 0 fun x => fields [(x.1.toNat, 21), (1, 20)]
  let w4 := served.elim 0 fun x => x.2.toNat
  let temp := if has then tget 0 s.rpt.temps r else s.rpt.procTemp
  let mv := if has then tget 0 s.rpt.volts r + trimOf s u * 625 / 100 else tget 750 s.rpt.volts 32
  let w6 := (BitVec.ofInt 16 temp).toNat * 2 ^ 48 + fields [(mv % 4096, 36), (if has then trimOf s u % 16 else 0, 32),
    (if has then clockStep s r else 0, 30)]
  let low := [e.stamp.toNat, fields [(s.rpt.next.toNat, 32), (e.kind, 24), (e.code, 16), (e.level, 13)], w2, w3, w4,
    e.syn.toNat, w6]
  let w7 := fields [(e.action, 24), (e.flags, 16), (e.rseq % 65536, 0)]
  let bytes := (low ++ [w7]).foldr (fun w acc => w + acc * 2 ^ 64) 0
  (low ++ [w7 + crc32c (bytes % 2 ^ 480) 60 * 2 ^ 32]).map (BitVec.ofNat 64)

/-! ## The header block of a firmware image (R839) -/

/-- Bytes hi to lo of a header block. -/
def hdr (h : BitVec 32768) (hi lo : Nat) : Nat := bits h.toNat (8 * hi + 7) (8 * lo)
def hdrSlot (h : BitVec 32768) : Byte := BitVec.ofNat 8 (hdr h 6 6)
def hdrRevision (h : BitVec 32768) : Byte := BitVec.ofNat 8 (hdr h 7 7)
def hdrSecurity (h : BitVec 32768) : BitVec 32 := BitVec.ofNat 32 (hdr h 11 8)
def hdrLength (h : BitVec 32768) : Nat := hdr h 15 12
def hdrRelease (h : BitVec 32768) : Word := BitVec.ofNat 64 (hdr h 31 24)

/-- The most bits that a prefix may have, by address family (R879). -/
def addrBits (v6 : Bool) : Nat := if v6 then 128 else 32
/-- An address of MGT_CFG or RPT_COLLECT as a number (R799). -/
def addrOf (v6 : Bool) (hi lo : Word) : Nat := if v6 then hi.toNat * 2 ^ 64 + lo.toNat else bits hi.toNat 31 0
/-- Whether MGT_CFG holds a valid address (R879): non-zero, its prefix in range, and a gateway inside the prefix. -/
def addrValid (s : State) : Bool :=
  let c := s.sbd.cfg
  let w0 := (c.getD 0 0).toNat
  let v6 := bit w0 61
  let n := bits w0 55 48
  let own := addrOf v6 (c.getD 1 0) (c.getD 2 0)
  let gate := addrOf v6 (c.getD 3 0) (c.getD 4 0)
  let cut := 2 ^ (addrBits v6 - n)
  own != 0 && decide (n ≤ addrBits v6) && (gate == 0 || gate / cut == own / cut)
/-- Whether the management port is up (R880), the "up" of R795. -/
def mgtUp (s : State) : Bool :=
  bit (s.sbd.cfg.getD 0 0).toNat 63 && addrValid s && s.sbd.synced && s.clk.state != .locking && !s.clk.gated
    && match s.pwr.state with
       | .startup => true | .run => true | .nap => true
       | _ => false

/-- Sending an entry on the management route (R793, R795). -/
def queueEntry (s : State) (w : List Word) : State :=
  let r := s.rpt
  if r.route = 0 then s
  else if 256 ≤ r.queue.length then raiseCause { s with rpt := { r with losses := sat32 r.losses 1 } } 5
  else { s with rpt := { r with queue := r.queue ++ [w] } }

/-- Creating an entry (R780, R790, R791, R794): the tail keeps it if it has room, and the routes carry it. -/
def postEntry (s : State) (e : EntryIn) : State :=
  let w := entryWords s e
  let r := s.rpt
  let r := { r with next := r.next + 1, stamp := if r.stamp ≤ e.stamp then e.stamp else r.stamp }
  let r := if r.tail.length < 256 then { r with tail := r.tail ++ [w] } else { r with overflow := sat32 r.overflow 1 }
  let full := decide (256 ≤ s.rpt.tail.length)
  let s := { s with rpt := r }
  let s := if full then raiseCause s 5 else s
  let s := if r.route = 1 then s else postEvent s 0x01 0xFF w
  queueEntry s w

end Sys2Proof.Machine
end

