-- ==== Sys2Proof/Machine/Heads.lean ====
section
/-! DEFINITION. The head flit of a packet as bits (R354, R355, R369). -/

namespace Sys2Proof.Machine

/-- Body flits of a packet: 128 bytes each (R354). -/
def bodyFlits (k : Packet) : Nat := 4 * k.rows.length

/-- Bits 991:0 of a head flit (R354): no type of R355 uses bits 991:256. -/
def headLow (k : Packet) : Nat :=
  fields [(k.dst.toNat, 114), (siteX k.dstSite, 106), (siteY k.dstSite, 99), (ofBool k.epoch, 98), (siteX k.srcSite, 90),
    (siteY k.srcSite, 83), (k.src.toNat, 69), (k.ptype % 16, 65), (bodyFlits k % 16, 61), (k.injTime.toNat, 45), (k.seq.toNat, 29),
    (ofBool k.opn, 28), (k.srcPois.toNat, 26), (ofBool k.last, 25), (k.crossX.elim 0 (·.val), 22), (k.crossY.elim 0 (·.val), 19),
    (k.op.toNat, 128)]

/-- The CRC-32C of a packet: bytes 0 to 123 of the head, then every payload byte (R369). -/
def headCrc (low : Nat) (rows : List PRow) : Nat :=
  crc32c (low + rows.foldr (fun r acc => r.data.toNat + acc * 2 ^ 4096) 0 * 2 ^ 992) (124 + 512 * rows.length)

/-- The head flit of a packet (R354). -/
def headOf (k : Packet) : BitVec 1024 := BitVec.ofNat 1024 (headLow k + headCrc (headLow k) k.rows * 2 ^ 992)

/-- Whether a head flit and its payload keep their CRC (R369). -/
def crcHolds (head : BitVec 1024) (rows : List PRow) : Bool := bits head.toNat 1023 992 == headCrc (bits head.toNat 991 0) rows

/-- A packet as its head flit spells it; site `v` holds it. -/
def packetOf (head : BitVec 1024) (rows : List PRow) (v : Nat) : Packet :=
  let h := head.toNat
  { dst := BitVec.ofNat 14 (bits h 127 114), dstSite := siteXY (bits h 113 106) (bits h 105 99), epoch := bit h 98,
    srcSite := siteXY (bits h 97 90) (bits h 89 83), src := BitVec.ofNat 14 (bits h 82 69), ptype := bits h 68 65,
    injTime := BitVec.ofNat 16 (bits h 60 45), seq := BitVec.ofNat 16 (bits h 44 29), opn := bit h 28,
    srcPois := BitVec.ofNat 2 (bits h 27 26), last := bit h 25, op := BitVec.ofNat 128 (bits h 255 128), rows := rows, pos := v,
    toPort := none, fromPort := none }

end Sys2Proof.Machine
end

