-- ==== Sys2Proof/Machine/Flags.lean ====
section
/-! DEFINITION. Numbers: floating formats, one rounding, the numeric flags of sw51 (R143 to R154), and integer elements. A
finite value is a sign, a natural m and an exponent e, and stands for ± m * 2^e exactly. -/

namespace Sys2Proof.Machine

/-- A floating value before it is encoded. -/
inductive Fp where
  | nan (signaling : Bool)
  | inf (neg : Bool)
  | fin (neg : Bool) (m : Nat) (e : Int)
  deriving DecidableEq, Repr

/-- A floating format: exponent bits, mantissa bits, bias, whether its top exponent holds infinities, and its canonical
NaN (R147; R207 for the FP8 formats). -/
structure FpFmt where
  eb   : Nat
  mb   : Nat
  bias : Nat
  infs : Bool
  nan  : Nat
  deriving DecidableEq, Repr

def fmtFp32 : FpFmt := { eb := 8, mb := 23, bias := 127, infs := true, nan := 0x7FC00000 }
def fmtBf16 : FpFmt := { eb := 8, mb := 7, bias := 127, infs := true, nan := 0x7FC0 }
def fmtFp16 : FpFmt := { eb := 5, mb := 10, bias := 15, infs := true, nan := 0x7E00 }
def fmtE4M3 : FpFmt := { eb := 4, mb := 3, bias := 7, infs := false, nan := 0x7F }
def fmtE5M2 : FpFmt := { eb := 5, mb := 2, bias := 15, infs := true, nan := 0x7E }

/-- Bit i is set by invalid, overflow, underflow, inexact, conversion saturated (R149). -/
abbrev NFlags := BitVec 5
def flInvalid : NFlags := 1
def flOverflow : NFlags := 2
def flUnderflow : NFlags := 4
def flInexact : NFlags := 8
def flSaturated : NFlags := 16

/-- Decoding the bits of a format (R174). -/
def fpDecode (f : FpFmt) (x : Nat) : Fp :=
  let m := x % 2 ^ f.mb
  let e := (x >>> f.mb) % 2 ^ f.eb
  let neg := bit x (f.eb + f.mb)
  if f.infs && e == 2 ^ f.eb - 1 then (if m = 0 then .inf neg else .nan (!bit m (f.mb - 1)))
  else if !f.infs && e == 2 ^ f.eb - 1 && m == 2 ^ f.mb - 1 then .nan false
  else if e = 0 then .fin neg m (1 - (f.bias : Int) - f.mb)
  else .fin neg (2 ^ f.mb + m) ((e : Int) - f.bias - f.mb)

/-- m / 2^k to nearest even, and whether a non-zero bit is lost. -/
def roundShift (m k : Nat) : Nat × Bool :=
  let q := m >>> k
  let r := m % 2 ^ k
  let half := 2 ^ k / 2
  (if k ≠ 0 ∧ (half < r ∨ (r = half ∧ q % 2 = 1)) then q + 1 else q, r != 0)

/-- m * 2^e as a multiple of 2^q, to nearest even. -/
def roundTo (m : Nat) (e q : Int) : Nat × Bool :=
  if q ≤ e then (m <<< (e - q).toNat, false) else roundShift m (q - e).toNat

/-- The largest finite magnitude of a format, as its bits without sign. -/
def fpMax (f : FpFmt) : Nat := if f.infs then (2 ^ f.eb - 1) * 2 ^ f.mb - 1 else 2 ^ (f.eb + f.mb) - 2

/-- Encoding a value with one rounding to nearest even (R146, R148): overflow gives infinity, or the largest magnitude
where the format has no infinity. -/
def fpRound (f : FpFmt) (v : Fp) : Nat × NFlags :=
  match v with
  | .nan _ => (f.nan, 0)
  | .inf neg =>
    let sg := ofBool neg <<< (f.eb + f.mb)
    if f.infs then (sg + (2 ^ f.eb - 1) * 2 ^ f.mb, 0) else (sg + fpMax f, flOverflow ||| flInexact)
  | .fin neg m e =>
    let sg := ofBool neg <<< (f.eb + f.mb)
    if m = 0 then (sg, 0) else
    let top : Int := e + (Nat.log2 m : Int)
    let emin : Int := 1 - (f.bias : Int)
    let q : Int := max (top - f.mb) (emin - f.mb)
    let (r, lost) := roundTo m e q
    -- the sum of the exponent field and the mantissa carries into the exponent by itself
    let enc := ((q - (emin - f.mb)).toNat * 2 ^ f.mb) + r
    let tinyB := decide (top < emin)
    let (r2, _) := roundTo m e (top - f.mb)
    let tinyA := decide (top + ofBool (r2 == 2 ^ (f.mb + 1)) < emin)
    let tiny := if Config.tinyBefore then tinyB else tinyA
    if fpMax f < enc then
      (if f.infs then sg + (2 ^ f.eb - 1) * 2 ^ f.mb else sg + fpMax f, flOverflow ||| flInexact)
    else (sg + enc, (if lost then flInexact else 0) ||| (if tiny && lost then flUnderflow else 0))

def fpIsNan : Fp → Bool
  | .nan _ => true
  | _ => false
def fpIsSnan : Fp → Bool
  | .nan s => s
  | _ => false
def fpNeg : Fp → Fp
  | .nan s => .nan s
  | .inf n => .inf (!n)
  | .fin n m e => .fin (!n) m e
/-- The invalid flag when an operand is a signaling NaN. -/
def snanFlag (l : List Fp) : NFlags := if l.any fpIsSnan then flInvalid else 0

/-- The signed integer of a finite value over 2^q, for q at most its exponent. -/
def fpScaled (neg : Bool) (m : Nat) (e q : Int) : Int :=
  let x : Int := (m <<< (e - q).toNat : Nat)
  if neg then -x else x

/-- The exact sum (R146): an exact zero of operands of opposite sign is +0, of one sign keeps it. -/
def fpAdd (a b : Fp) : Fp × NFlags :=
  match a, b with
  | .nan s, y => (.nan false, snanFlag [.nan s, y])
  | x, .nan s => (.nan false, snanFlag [x, .nan s])
  | .inf n, .inf k => if n = k then (.inf n, 0) else (.nan false, flInvalid)
  | .inf n, _ => (.inf n, 0)
  | _, .inf k => (.inf k, 0)
  | .fin n m e, .fin k p f =>
    let q := min e f
    let z := fpScaled n m e q + fpScaled k p f q
    if z = 0 then (.fin (if m = 0 ∧ p = 0 then n && k else false) 0 q, 0)
    else (.fin (decide (z < 0)) z.natAbs q, 0)

/-- The exact product (R146). -/
def fpMul (a b : Fp) : Fp × NFlags :=
  match a, b with
  | .nan s, y => (.nan false, snanFlag [.nan s, y])
  | x, .nan s => (.nan false, snanFlag [x, .nan s])
  | .inf n, .inf k => (.inf (n != k), 0)
  | .inf n, .fin k p _ => if p = 0 then (.nan false, flInvalid) else (.inf (n != k), 0)
  | .fin n m _, .inf k => if m = 0 then (.nan false, flInvalid) else (.inf (n != k), 0)
  | .fin n m e, .fin k p f => (.fin (n != k) (m * p) (e + f), 0)

/-- The exact a * b + c. -/
def fpFma (a b c : Fp) : Fp × NFlags :=
  let (p, f1) := fpMul a b
  let (r, f2) := fpAdd p c
  (r, f1 ||| f2)

/-- a < b as numbers; false if either is NaN. -/
def fpLt (a b : Fp) : Bool :=
  match a, b with
  | .nan _, _ => false
  | _, .nan _ => false
  | .inf n, .inf k => n && !k
  | .inf n, .fin _ _ _ => n
  | .fin _ _ _, .inf k => !k
  | .fin n m e, .fin k p f => let q := min e f; decide (fpScaled n m e q < fpScaled k p f q)
def fpIsNeg : Fp → Bool
  | .nan _ => false
  | .inf n => n
  | .fin n _ _ => n
def fpIsZero : Fp → Bool
  | .fin _ m _ => m == 0
  | _ => false
def fpEq (a b : Fp) : Bool := !fpIsNan a && !fpIsNan b && !fpLt a b && !fpLt b a

/-- The maximum, or the minimum, with −0 below +0 and NaN giving NaN (R146). -/
def fpMaxMin (mx : Bool) (a b : Fp) : Fp × NFlags :=
  if fpIsNan a || fpIsNan b then (.nan false, snanFlag [a, b])
  else
    let lt := fpLt a b || (fpIsZero a && fpIsZero b && fpIsNeg a && !fpIsNeg b)
    (if lt = mx then b else a, 0)

/-! ## Element types (R143) -/

/-- Element types of the vector slots. -/
inductive EType where
  | flt (f : FpFmt)
  | int (w : Nat)
  deriving DecidableEq, Repr

def etype : Nat → Option EType
  | 0 => some (.flt fmtFp32) | 1 => some (.flt fmtBf16) | 2 => some (.flt fmtFp16) | 3 => some (.flt fmtE4M3)
  | 4 => some (.flt fmtE5M2) | 5 => some (.int 8) | 6 => some (.int 32) | _ => none
def ewidth : EType → Nat
  | .flt f => f.eb + f.mb + 1
  | .int w => w
/-- Elements of a register. -/
def ecount (t : EType) : Nat := 2048 / ewidth t

/-- A signed integer from w bits, and back with wrapping. -/
def sx (w x : Nat) : Int := (BitVec.ofNat w x).toInt
def ux (w : Nat) (z : Int) : Nat := (BitVec.ofInt w z).toNat

/-- Whether an element is zero as its type reads it: −0 is zero, NaN is not. -/
def ezero (t : EType) (x : Nat) : Bool :=
  match t with
  | .flt f => fpIsZero (fpDecode f x)
  | .int _ => x == 0

/-- One rounding of a computed value. -/
def fpOut (f : FpFmt) (r : Fp × NFlags) : Nat × NFlags :=
  let (x, g) := fpRound f r.1
  (x, r.2 ||| g)

/-- An element's result before its one rounding, where it has one (R146, R693): a value that a format rounds, a value that a
conversion rounds, or bits that no rounding follows; with the flags already raised. -/
inductive PreElem where
  | round (f : FpFmt) (v : Fp) (g : NFlags)
  | convert (t : EType) (v : Fp)
  | bits (x : Nat) (g : NFlags)

/-- A vector ALU element before its rounding (R145). -/
def valuPre (opc : Nat) (t : EType) (a b c : Nat) : PreElem :=
  let w := ewidth t
  let ones := 2 ^ w - 1
  if opc = 0xC6 then .bits (a &&& b) 0
  else if opc = 0xC7 then .bits (a ||| b) 0
  else if opc = 0xC8 then .bits (a ^^^ b) 0
  else if opc = 0xCB then .bits (if ezero t c then b else a) 0
  else match t with
  | .flt f =>
    let x := fpDecode f a
    let y := fpDecode f b
    let z := fpDecode f c
    let r := fun (v : Fp × NFlags) => PreElem.round f v.1 v.2
    if opc = 0xC0 then r (fpAdd x y)
    else if opc = 0xC1 then r (fpAdd x (fpNeg y))
    else if opc = 0xC2 then r (fpMul x y)
    else if opc = 0xC3 then r (fpFma x y z)
    else if opc = 0xC4 then r (fpMaxMin true x y)
    else if opc = 0xC5 then r (fpMaxMin false x y)
    else if opc = 0xC9 then .bits (if fpLt x y then ones else 0) (if fpIsNan x || fpIsNan y then flInvalid else 0)
    else if opc = 0xCA then .bits (if fpEq x y then ones else 0) (snanFlag [x, y])
    else .bits 0 0
  | .int _ =>
    let x := sx w a
    let y := sx w b
    let z := sx w c
    if opc = 0xC0 then .bits (ux w (x + y)) 0
    else if opc = 0xC1 then .bits (ux w (x - y)) 0
    else if opc = 0xC2 then .bits (ux w (x * y)) 0
    else if opc = 0xC3 then .bits (ux w (x * y + z)) 0
    else if opc = 0xC4 then .bits (if x < y then b else a) 0
    else if opc = 0xC5 then .bits (if x < y then a else b) 0
    else if opc = 0xC9 then .bits (if x < y then ones else 0) 0
    else if opc = 0xCA then .bits (if a = b then ones else 0) 0
    else if b < w then .bits (if opc = 0xCC then (a <<< b) % 2 ^ w else ux w (x / 2 ^ b)) 0
    else .bits (Config.vshift opc w a b % 2 ^ w) 0

/-- Latency of a vector ALU operation (R145). -/
def valuLatency (opc : Nat) (t : EType) : Nat :=
  if 0xC3 < opc then 2 else match t with
  | .flt f => if f.eb + f.mb + 1 = 8 then 3 else 4
  | .int _ => 2

/-! ## Conversion (R153) -/

/-- An exact value of a type, times 2^k. -/
def cvtIn (t : EType) (k : Int) (x : Nat) : Fp :=
  match t with
  | .flt f => match fpDecode f x with
    | .fin n m e => .fin n m (e + k)
    | v => v
  | .int w => .fin (decide (sx w x < 0)) (sx w x).natAbs k

/-- Converting a value into a type: to integers to nearest even and saturating, NaN to 0. -/
def cvtOut (t : EType) (v : Fp) : Nat × NFlags :=
  match t with
  | .flt f =>
    let (x, g) := fpRound f v
    (x, g ||| (if fpIsSnan v then flInvalid else 0) ||| (if !f.infs && g &&& flOverflow != 0 then flSaturated else 0))
  | .int w =>
    let hi : Int := 2 ^ (w - 1) - 1
    let lo : Int := -2 ^ (w - 1)
    match v with
    | .nan _ => (0, flInvalid)
    | .inf n => (ux w (if n then lo else hi), flSaturated)
    | .fin n m e =>
      let (r, lost) := roundTo m e 0
      let z : Int := if n then -(r : Int) else r
      if hi < z then (ux w hi, flSaturated) else if z < lo then (ux w lo, flSaturated)
      else (ux w z, if lost then flInexact else 0)

/-- The element that its rounding makes of a result, with the flags it raises. -/
def PreElem.out : PreElem → Nat × NFlags
  | .round f v g => fpOut f (v, g)
  | .convert t v => cvtOut t v
  | .bits x g => (x, g)

/-- One element of a vector ALU result (R145), with the flags it raises. -/
def valuElem (opc : Nat) (t : EType) (a b c : Nat) : Nat × NFlags := (valuPre opc t a b c).out

/-- Element i of a register of elements of w bits. -/
def elemAt (v w i : Nat) : Nat := (v >>> (w * i)) % 2 ^ w

/-- n elements of w bits, element i given by f, with the flags they raise. -/
def buildElems (w : Nat) (f : Nat → Nat × NFlags) : Nat → Nat × NFlags
  | 0 => (0, 0)
  | n + 1 =>
    let (v, g) := buildElems w f n
    let (x, h) := f n
    (v + ((x % 2 ^ w) <<< (w * n)), g ||| h)

/-- The element of registers A and B that VCVT converts into element i (R153): the same one where the widths agree; narrowing by two
packs A low and B high; widening by two takes the half of A that is selected; none where the rule states no result. -/
def vcvtSource (wf wt : Nat) (half : Bool) (a b i : Nat) : Option Nat :=
  if wf = wt then some (elemAt a wf i)
  else if wf = 2 * wt then
    let n := 2048 / wf
    some (if i < n then elemAt a wf i else elemAt b wf (i - n))
  else if wt = 2 * wf then some (elemAt a wf (if half then i + 2048 / wt else i))
  else none

/-- Element i of a VCVT before its rounding (R153); `none` as `vcvtSource`. -/
def vcvtPre (tf tt : EType) (half : Bool) (k : Int) (a b i : Nat) : Option PreElem :=
  (vcvtSource (ewidth tf) (ewidth tt) half a b i).map fun x => .convert tt (cvtIn tf k x)

/-! ## Functions (R154) -/

/-- The canonical form of an FP32 result (R147). -/
def canon32 (x : BitVec 32) : Nat :=
  match fpDecode fmtFp32 x.toNat with
  | .nan _ => fmtFp32.nan
  | _ => x.toNat

/-- ⌊√n⌋ by bits from 2^k down. -/
def isqrtFrom (n r : Nat) : Nat → Nat
  | 0 => if (r + 1) * (r + 1) ≤ n then r + 1 else r
  | k + 1 =>
    let c := r + 2 ^ (k + 1)
    isqrtFrom n (if c * c ≤ n then c else r) k

/-- A free result kept from `lo` below to `hi` above the bits t, in units in the last place; t itself where it lies outside. -/
def nearBits (lo hi t x : Nat) : Nat := if t ≤ x + lo ∧ x ≤ t + hi then x else t

/-- A positive value m * 2^e rounded toward zero to FP32 bits, and whether nothing is lost; none past the largest number. -/
def truncFp32 (m : Nat) (e : Int) : Option (Nat × Bool) :=
  if m = 0 then some (0, true)
  else
    let top : Int := e + (Nat.log2 m : Int)
    if 127 < top then none
    else if top < -160 then some (0, false)
    else
      let q := max (top - 23) (-149)
      let r := if q ≤ e then m <<< (e - q).toNat else m >>> (q - e).toNat
      some ((q + 149).toNat * 2 ^ 23 + r, q ≤ e || m % 2 ^ (q - e).toNat == 0)

/-- A free result of either sign kept within n units in the last place of a value that lies between two bounds, given by their bits
rounded toward zero; the lower bound is exact where the value is. An inexact value lies above its bits, by less than a unit. -/
def within (n : Nat) (neg : Bool) (lo hi : Nat × Bool) (free : Nat) : Nat :=
  ofBool neg * 2 ^ 31 +
    (if bit free 31 != neg then lo.1
     else if lo.2 then nearBits n n lo.1 (free % 2 ^ 31)
     else if hi.1 ≤ free % 2 ^ 31 + (n - 1) ∧ free % 2 ^ 31 ≤ lo.1 + n then free % 2 ^ 31 else lo.1)

/-- VRCP of one FP32 element: within 1 unit in the last place of 1/x; free where 1/x is no number or too large for one. -/
def vrcpElem (x : Nat) : Nat :=
  let free := canon32 (Config.vrcp (BitVec.ofNat 32 x))
  match fpDecode fmtFp32 x with
  | .nan _ => fmtFp32.nan
  | .fin n m e =>
    if m = 0 then free else
    match truncFp32 (2 ^ 80 / m) (-80 - e) with
    | some (t, ex) => within 1 n (t, ex && 2 ^ 80 % m == 0) (t, false) free
    | none => free
  | _ => free

/-- VRSQRT of one FP32 element, as `vrcpElem`; a value below zero has no real result and is free. -/
def vrsqrtElem (x : Nat) : Nat :=
  let free := canon32 (Config.vrsqrt (BitVec.ofNat 32 x))
  match fpDecode fmtFp32 x with
  | .nan _ => fmtFp32.nan
  | .fin n m e =>
    if m = 0 ∨ n then free else
    -- x = m' * 2^(2h) with m' = m or 2m; 1/√x = √(2^160 / m') * 2^(-80 - h), to 40 further bits
    let h := e / 2
    let m' := if e % 2 = 0 then m else 2 * m
    let d := 2 ^ 160 / m'
    let r := isqrtFrom d 0 80
    match truncFp32 r (-80 - h) with
    | some (t, ex) => within 1 false (t, ex && r * r == d && 2 ^ 160 % m' == 0) (t, false) free
    | none => free
  | _ => free

/-- 2^(f / 2^n) as a multiple of 2^-256, rounded toward zero: the product of 2^(2^-i) over the bits of f, first to last; c is the
factor of the bit before. -/
def exp2Frac (f c acc : Nat) : Nat → Nat
  | 0 => acc
  | n + 1 =>
    let c := isqrtFrom (c * 2 ^ 256) 0 258
    exp2Frac f c (if bit f n then acc * c / 2 ^ 256 else acc) n

/-- VEXP2 of one FP32 element: within 2 units in the last place of 2^x; free where x is infinite or 2^x too large. Every FP32 number is
a multiple of 2^-149; the factors' roundings stay below 2^-200 of the result. -/
def vexp2Elem (x : Nat) : Nat :=
  let free := canon32 (Config.vexp2 (BitVec.ofNat 32 x))
  match fpDecode fmtFp32 x with
  | .nan _ => fmtFp32.nan
  | .fin n m e =>
    let y : Int := fpScaled n m e (-149)
    let k := y / 2 ^ 149
    let f := (y % 2 ^ 149).toNat
    if 128 ≤ k then free
    else
      let r := exp2Frac f (2 * 2 ^ 256) (2 ^ 256) 149
      match truncFp32 r (k - 256), truncFp32 (r + r / 2 ^ 200) (k - 256) with
      | some (t, ex), some hi => within 2 false (t, ex && f == 0) hi free
      | _, _ => free
  | _ => free

/-- The first n bits of log2 of a multiple y of 2^-600, 1 ≤ y < 2, after those in acc: squaring doubles the logarithm. -/
def log2Frac (y acc : Nat) : Nat → Nat
  | 0 => acc
  | n + 1 =>
    let z := y * y / 2 ^ 600
    if 2 ^ 601 ≤ z then log2Frac (z / 2) (2 * acc + 1) n else log2Frac z (2 * acc) n

/-- VLOG2 of one FP32 element: within 2 units in the last place of log2 x; free where x is zero, below zero or infinite. The logarithm is
found to 256 bits of its fraction, rounded down, and lies below the next multiple. -/
def vlog2Elem (x : Nat) : Nat :=
  let free := canon32 (Config.vlog2 (BitVec.ofNat 32 x))
  match fpDecode fmtFp32 x with
  | .nan _ => fmtFp32.nan
  | .fin n m e =>
    if m = 0 ∨ n then free else
    let top := Nat.log2 m
    let y : Int := (e + (top : Int)) * 2 ^ 256 + (log2Frac (m * 2 ^ (600 - top)) 0 256 : Nat)
    let pow := m == 2 ^ top
    if y = 0 ∧ pow then (if free % 2 ^ 31 ≤ 2 then free else 0)
    else
      let (lo, hi) := if pow then (y.natAbs, y.natAbs) else if y < 0 then (y.natAbs - 1, y.natAbs) else (y.natAbs, y.natAbs + 1)
      match truncFp32 lo (-256), truncFp32 hi (-256) with
      | some (t, ex), some h => within 2 (decide (y < 0)) (t, ex && pow) h free
      | _, _ => free
  | _ => free

/-- One element of a function of the conversion slot (R153, R154). -/
def vfunElem (opc x : Nat) : Nat × NFlags :=
  let fl := Config.vfunFlags opc (BitVec.ofNat 32 x)
  if opc = 0xF1 then (vexp2Elem x, fl)
  else if opc = 0xF2 then (vlog2Elem x, fl)
  else if opc = 0xF3 then (vrcpElem x, fl)
  else (vrsqrtElem x, fl)

/-! ## Reduction (R151, R152) -/

/-- One level of the pairwise sum. -/
def pairSum : List Nat → List Nat × NFlags
  | a :: b :: t =>
    let (x, g) := fpOut fmtFp32 (fpAdd (fpDecode fmtFp32 a) (fpDecode fmtFp32 b))
    let (r, h) := pairSum t
    (x :: r, g ||| h)
  | l => (l, 0)

/-- The fixed pairwise order (R152); k levels reduce 2^k elements. -/
def treeSum (l : List Nat) : Nat → List Nat × NFlags
  | 0 => (l, 0)
  | k + 1 =>
    let (r, g) := pairSum l
    let (x, h) := treeSum r k
    (x, g ||| h)

/-- The elements of a register, first to last. -/
def elemsFrom (v w i : Nat) : Nat → List Nat
  | 0 => []
  | n + 1 => elemAt v w i :: elemsFrom v w (i + 1) n

/-- A reduction of one register before its last rounding, the width that it fills, and the flags raised on the way. -/
def reducePre (opc : Nat) (t : EType) (v : Nat) : PreElem × Nat × NFlags :=
  let w := ewidth t
  let l := elemsFrom v w 0 (ecount t)
  if opc = 0xE0 then
    match t with
    | .flt f =>
      let snan := if l.any (fun x => fpIsSnan (fpDecode f x)) then flInvalid else 0
      match treeSum (l.map fun x => (fpRound fmtFp32 (fpDecode f x)).1) (Nat.log2 (ecount t) - 1) with
      | ([a, b], g) =>
        let r := fpAdd (fpDecode fmtFp32 a) (fpDecode fmtFp32 b)
        (.round fmtFp32 r.1 r.2, 32, g ||| snan)
      | (r, g) => (.bits (r.headD 0) g, 32, snan)
    | .int _ => (.bits (ux 64 ((l.map (sx w)).foldl (· + ·) 0)) 0, 64, 0)
  else
    let o := if opc = 0xE1 then 0xC4 else 0xC5
    match l with
    | [] => (.bits 0 0, w, 0)
    | x :: r =>
      let (y, g) := r.foldl (fun acc z => let (a, h) := valuElem o t acc.1 z 0; (a, acc.2 ||| h)) (x, 0)
      (.bits y g, w, 0)

/-- A reduction of one register: the value and the width it fills. -/
def reduceElems (opc : Nat) (t : EType) (v : Nat) : Nat × Nat × NFlags :=
  let (p, w, g) := reducePre opc t v
  let (x, h) := p.out
  (x, w, g ||| h)

end Sys2Proof.Machine
end

