-- ==== Sys2Proof/Machine/Operands.lean ====
section
/-! DEFINITION. Slots and their fields (R109 to R158): which opcode belongs where, which bits are reserved, what an operand
reads, which rows a slot reads, and every program fault that a slot raises at issue (R163, R164). -/

namespace Sys2Proof.Machine

/-! ## Registers and status words -/

/-- A general register (R99). -/
def rg (c : Core) (i : Nat) : PVal := if i = 0 then pval0 else tget pval0 c.gpr i
def rv (c : Core) (i : Nat) : VReg := tget vreg0 c.vec i
def rcnt (c : Core) (i : Nat) : BitVec 32 := tget 0 c.counters i
def getChan (c : Core) (n : Nat) : Chan := tget chan0 c.chans n
def setChan (c : Core) (n : Nat) (x : Chan) : Core := { c with chans := tset chan0 c.chans n x }

def chRole (x : Chan) : Nat := bits x.entry.toNat 63 62
def chPeer (x : Chan) : Nat := bits x.entry.toNat 61 48
def chPeerCh (x : Chan) : Nat := bits x.entry.toNat 47 43
def chBase (x : Chan) : Nat := bits x.entry.toNat 42 28
def chRows (x : Chan) : Nat := bits x.entry.toNat 27 15

/-- A channel word (R401 to R403). -/
def chanWord (x : Chan) : Word :=
  BitVec.ofNat 64 (
    if chRole x = 1 then
      fields [(1, 62), (match x.sendState with | .ready => 0 | .refused => 1 | .resuming => 2, 60), (x.gen.toNat, 52),
        (x.nextSeq.toNat, 36), (x.lastRef.toNat, 28), (x.inFlight % 16, 24), (chRows x, 11)]
    else if chRole x = 2 then
      fields [(2, 62), (if x.paused then 2 else match x.recvState with | .opened => 0 | .closed => 1, 60), (x.gen.toNat, 52),
        (x.wo % 4096, 40), (x.ro % 4096, 28), (x.used % 8192, 15), (x.delivered.toNat, 0)]
    else 0)

/-- A status word (R101). -/
def statusWord (s : State) (u : Nat) (c : Core) (i : Nat) : Word :=
  if i < 16 then tget 0 c.slots i
  else if i < 48 then chanWord (getChan c (i - 16))
  else if i = 48 then BitVec.ofNat 64 (timeAt s u)
  else if i = 49 then BitVec.ofNat 64 c.cycle
  else if i = 50 then BitVec.ofNat 64 (fields [(c.fcode.toNat, 56), (c.fcount.toNat, 48)])
  else if i = 51 then (match c.profile with | .v => c.flags.setWidth 64 | _ => 0)
  else 0

/-- A source operand of an integer slot (R112, R113). -/
def readSpec (s : State) (u : Nat) (c : Core) (spec imm : Nat) : PVal :=
  let i := bits spec 5 0
  match bits spec 9 8 with
  | 0 => rg c i
  | 1 => tget pval0 c.win (bits spec 7 6 * 64 + i)
  | 2 => { v := (BitVec.ofNat 24 imm).signExtend 64, p := false }
  | _ => { v := statusWord s u c i, p := false }

/-! ## Slots (R109, R110, R784) -/

/-- The operation class of a slot (R784): 1 integer to 7 conversion, 8 feeder to 12 check; 0 for no such slot. -/
def slotClass (p : Profile) (slot : Nat) : Nat :=
  match p with
  | .s => ([1, 1, 2, 3][slot]?).getD 0
  | .v => ([1, 1, 2, 3, 4, 5, 6, 7][slot]?).getD 0
  | .m => ([1, 3, 8, 9, 10, 11, 12][slot]?).getD 0

/-- The class that an opcode belongs to; 0 if it is undefined. -/
def opcClass (o : Nat) : Nat :=
  if (0x01 ≤ o ∧ o ≤ 0x0E) ∨ (0x10 ≤ o ∧ o ≤ 0x15) then 1
  else if 0x40 ≤ o ∧ o ≤ 0x42 then 2
  else if (0x80 ≤ o ∧ o ≤ 0x86) ∨ (0x88 ≤ o ∧ o ≤ 0x8F) then 3
  else if 0xC0 ≤ o ∧ o ≤ 0xCD then 4
  else if 0xD0 ≤ o ∧ o ≤ 0xD3 then 5
  else if 0xE0 ≤ o ∧ o ≤ 0xE2 then 6
  else if 0xF0 ≤ o ∧ o ≤ 0xF4 then 7
  else if o = 0x20 ∨ o = 0x21 then 8
  else if 0x28 ≤ o ∧ o ≤ 0x2B then 9
  else if o = 0x30 then 10
  else if o = 0x38 then 11
  else if o = 0x3C ∨ o = 0x3D then 12
  else 0

/-- The bits hi to lo set. -/
def msk (hi lo : Nat) : Nat := 2 ^ (hi + 1) - 2 ^ lo

/-- The bits below the opcode that its format uses; every other bit is reserved (R111, R114 to R158). -/
def fieldMask (o : Nat) (w : Nat) : Nat :=
  match opcClass o with
  | 1 => msk 55 26 + msk 23 0
  | 2 => msk 55 32
  | 3 =>
    if o = 0x80 then msk 55 55 + msk 48 37
    else if o ≤ 0x85 then msk 55 49 + msk 48 37
    else if o = 0x86 then msk 54 49
    else if o = 0x88 then msk 55 11
    else if o = 0x89 then msk 55 36
    else if o ≤ 0x8C then msk 55 45
    else if o = 0x8D then msk 55 26
    else if o = 0x8E then msk 31 0
    else 0
  | 4 => msk 55 27
  | 5 => if o ≤ 0xD1 then msk 55 30 else if o = 0xD2 then msk 55 42 else msk 55 34
  | 6 => msk 55 41
  | 7 => msk 55 27
  | 8 => if o = 0x20 then msk 87 28 else 0
  | 9 => if o = 0x28 then msk 55 36 + msk 34 19 else if o = 0x29 then 0 else if o = 0x2A then msk 55 29 else msk 55 37
  | 10 => msk 87 7
  | 11 => if bit w 31 then msk 55 28 else msk 55 15
  | 12 => if o = 0x3C then msk 55 55 else msk 55 32
  | _ => 0

/-- R111: a bit outside the format's fields is set. -/
def badReserved (o w : Nat) : Bool := (w ||| fieldMask o w) != fieldMask o w

/-! ## Matrix formats (R155, R178) -/

/-- Rate class of a format: 4, 8 or 16 bits; 0 for none. -/
def rateClass (f : Nat) : Nat :=
  if f = 3 ∨ f = 8 ∨ f = 10 then 4 else if f = 11 then 16 else if f ≤ 9 then 8 else 0
def fmtIsMx (f : Nat) : Bool := 4 ≤ f && f ≤ 10
def fmtIsSix (f : Nat) : Bool := f == 6 || f == 7
/-- Vectors of a row group (R178). -/
def vecPerRow (f : Nat) : Nat := if rateClass f = 4 then 4 else if rateClass f = 16 then 1 else 2
def vecBytes (f : Nat) : Nat := 512 / vecPerRow f
/-- Tile rows of LDW (R178). -/
def tileRows (f : Nat) : Nat := if rateClass f = 4 then 64 else if fmtIsSix f then 96 else if rateClass f = 16 then 256 else 128
/-- Rows of a drained vector times two (R158). -/
def drainHalves (f : Nat) : Nat := if f = 0xD ∨ f = 0xE then 4 else if f = 0xB ∨ f = 0xC then 2 else 1
def drainRows (f n : Nat) : Nat := ceilDiv (drainHalves f * n) 2
def okDrainFmt (f : Nat) : Bool := [0, 1, 2, 0xB, 0xC, 0xD, 0xE].contains f

/-- Rows base, base + stride, … of a command. -/
structure RowSet where
  base   : Nat
  n      : Nat
  stride : Nat
  deriving DecidableEq, Repr

def RowsHave (r : RowSet) (x : Nat) : Bool :=
  decide (r.base ≤ x) && decide ((x - r.base) % r.stride = 0) && decide ((x - r.base) / r.stride < r.n)
/-- The first row of a set that is not below a count. -/
def rowsPast (r : RowSet) (count : Nat) : Option Nat :=
  if r.n = 0 ∨ r.base + (r.n - 1) * r.stride < count then none
  else if count ≤ r.base then some r.base else some (r.base + ceilDiv (count - r.base) r.stride * r.stride)
def run1 (b n : Nat) : RowSet := { base := b, n := n, stride := 1 }

/-- R118. -/
def rowAddr (c : Core) (reg off : Nat) : Nat := ((rg c reg).v.toNat + off) % 2 ^ 32

/-- Whether the descriptor register or pair of a SEND, MSG or DMA is poisoned (R920). -/
def descPoisoned (c : Core) (o w : Nat) : Bool :=
  (rg c (bits w 55 50)).p || (o != 0x8B && (rg c (bits w 55 50 + 1)).p)

/-- Local rows that a slot reads (R137) and whether they are local rows that it only names for writing. -/
def readRows (c : Core) (o w : Nat) : List RowSet :=
  if o = 0x40 then [run1 (rowAddr c (bits w 53 48) (bits w 47 32)) 1]
  else if o = 0xD0 then [run1 (rowAddr c (bits w 51 46) (bits w 45 30)) 1]
  else if o = 0x8A then
    if descPoisoned c o w then [] else
    let e := (rg c (bits w 55 50)).v.toNat
    [run1 (bits e 49 34) (bits e 33 28 + 1)]
  else if o = 0x8B then
    let d := (rg c (bits w 55 50)).v.toNat
    if descPoisoned c o w ∨ bits d 63 61 ≠ 0 then [] else [run1 (bits d 55 40) (bits d 39 34 + 1)]
  else if o = 0x8C then
    let e := (rg c (bits w 55 50)).v.toNat
    if descPoisoned c o w ∨ bits e 49 48 ≠ 1 then [] else [run1 (bits e 47 32) (bits e 31 20 + 1)]
  else if o = 0x8D then
    if (rg c (bits w 52 47)).p then [] else [run1 (rowAddr c (bits w 52 47) (bits w 46 31)) (bits w 30 26 + 1)]
  else if o = 0x20 then
    let f := bits w 87 84
    let n := bits w 67 52
    let st := if bits w 51 44 = 0 then 1 else bits w 51 44
    { base := bits w 83 68, n := ceilDiv n (vecPerRow f), stride := st }
      :: (if fmtIsMx f then [run1 (bits w 43 28) (ceilDiv n 64)] else [])
  else if o = 0x28 then
    let f := bits w 55 52
    run1 (bits w 51 36) (tileRows f) :: (if fmtIsMx f then [run1 (bits w 34 19) 4] else [])
  else if o = 0x30 then
    let f := bits w 87 84
    let pairs := (bits w 51 37 + 1) * bits w 36 29
    run1 (bits w 83 68) (ceilDiv (pairs * vecBytes f) 512) :: run1 (bits w 67 52) (ceilDiv (bits w 36 29 * vecBytes f) 512)
      :: (if fmtIsMx f then [run1 (bits w 22 7) (4 + ceilDiv (8 * pairs) 512)] else [])
  else if o = 0x3D then [run1 (bits w 55 40) (bits w 39 32 * 8)]
  else []

/-- Local rows that a slot names for writing and that are checked against the row count at issue (R118, R132). -/
def writeRows (c : Core) (o w : Nat) : List RowSet :=
  if o = 0x41 then [run1 (rowAddr c (bits w 53 48) (bits w 47 32)) 1]
  else if o = 0xD1 then [run1 (rowAddr c (bits w 51 46) (bits w 45 30)) 1]
  else if o = 0x8C then
    let e := (rg c (bits w 55 50)).v.toNat
    if descPoisoned c o w ∨ bits e 49 48 ≠ 0 then [] else [run1 (bits e 47 32) (bits e 31 20 + 1)]
  else if o = 0x38 ∧ !bit w 31 then [run1 (bits w 30 15) (drainRows (bits w 35 32) (bits w 44 36 + 1))]
  else []

/-! ## Program faults at issue (R163) -/

/-- Whether an ID is an output alias (R535). -/
def isOutAlias (id : Nat) : Bool := 12832 ≤ id && id < 12840

/-- RESERVED: reserved bits of the slot, must-be-zero bits of its specifiers and of its descriptor (R111, R112, R130, R131,
R405, R460). -/
def faultReserved (c : Core) (o w : Nat) : Bool :=
  badReserved o w ||
  (match opcClass o with
   | 1 => [bits w 55 46, bits w 45 36, bits w 35 26].any (fun sp => bits sp 9 8 != 1 && bits sp 7 6 != 0)
   | 3 =>
     if descPoisoned c o w then false
     else if o = 0x8A then
       let e := (rg c (bits w 55 50)).v.toNat
       let d := (rg c (bits w 55 50 + 1)).v.toNat
       let dst := bits e 63 50
       bits e 21 0 != 0 || bits d 26 0 != 0 ||
         (if isOutAlias dst then bits d 47 46 != 0
          else bits d 31 27 != 0 || (dst < 12832 && bits d 47 32 != 0))
     else if o = 0x8B then
       let d := (rg c (bits w 55 50)).v.toNat
       match bits d 63 61 with
       | 0 => bits d 33 0 != 0
       | 1 => bits d 55 40 != 0 || bits d 26 0 != 0
       | 2 => bits d 55 0 != 0
       | 3 => bits d 55 0 != 0
       | _ => false
     else if o = 0x8C then
       let e := (rg c (bits w 55 50)).v.toNat
       let d := (rg c (bits w 55 50 + 1)).v.toNat
       bit e 49 || bits e 13 0 != 0 || bits d 63 36 != 0 || bits d 8 0 != 0
     else false
   | _ => false)

/-- A specifier that no register file holds (R113). -/
def badSpec (p : Profile) (sp : Nat) (isRdcA : Bool) : Bool :=
  (bits sp 9 8 == 1 && p == .m) || (bits sp 9 8 == 0 && !isRdcA && gprCount p ≤ bits sp 5 0)

/-- OPERAND: an invalid specifier, register, type, format, compare code, pair base or count (R113 to R158, R222, R290,
R406); `mvo` is the chunk count of the MVM that still lacks its CHKCS. RDC's counter number, the register field that an immediate WAITC does
not use, and a CHKCS without an MVM are assumptions 92 and 93. -/
def faultOperand (c : Core) (mvo : Option Nat) (o w : Nat) : Bool :=
  let n := gprCount c.profile
  let bad := fun i => decide (n ≤ i)
  match opcClass o with
  | 1 =>
    let d := bits w 55 46
    let a := bits w 45 36
    let b := bits w 35 26
    decide (2 ≤ bits d 9 8) || bits a 9 8 == 2 || badSpec c.profile d false || badSpec c.profile a (o == 0x15)
      || badSpec c.profile b false || (o == 0x15 && bits a 9 8 != 0)
  | 2 => false
  | 3 =>
    if o = 0x80 then false
    else if o ≤ 0x86 then bad (bits w 54 49)
    else if o = 0x88 then bad (bits w 48 43)
    else if o = 0x89 then bad (bits w 47 42) || bad (bits w 41 36) || bits w 49 48 == 3
    else if o = 0x8A then bad (bits w 55 50) || bits w 55 50 % 2 == 1
    else if o = 0x8B then
      let d := (rg c (bits w 55 50)).v.toNat
      let x := getChan c (bits d 60 56)
      bad (bits w 55 50) || (!descPoisoned c o w &&
        (match bits d 63 61 with
         | 0 => chRole x != 1
         | 3 => chRole x != 1
         | 1 => chRole x != 2 || bits d 39 27 == 0 || decide (x.used < bits d 39 27)
         | 2 => chRole x != 2
         | _ => true))
    else if o = 0x8C then
      bad (bits w 55 50) || bits w 55 50 % 2 == 1 ||
        (!descPoisoned c o w && (tileOfId (bits (rg c (bits w 55 50)).v.toNat 63 50)).isNone)
    else if o = 0x8D then bad (bits w 52 47) || (tfind c.outPorts (bits w 55 53)).isNone
    else false
  | 4 =>
    match etype (bits w 35 33) with
    | none => true
    | some (.flt _) => o == 0xCC || o == 0xCD
    | some (.int _) => false
  | 5 =>
    if o = 0xD2 then (etype (bits w 44 42)).isNone
    else if o = 0xD3 then
      match etype (bits w 36 34) with
      | none => true
      | some t => decide (ecount t ≤ bits w 44 37)
    else false
  | 6 => (etype (bits w 43 41)).isNone || (!bit w 55 && decide (32 ≤ bits w 54 49))
  | 7 =>
    if o = 0xF0 then (etype (bits w 40 38)).isNone || (etype (bits w 37 35)).isNone
    else bits w 40 38 != 0 || bits w 37 35 != 0
  | 8 => o == 0x20 && (decide (0xC ≤ bits w 87 84) || bits w 67 52 == 0)
  | 9 => o == 0x28 && decide (0xC ≤ bits w 55 52)
  | 10 =>
    decide (0xC ≤ bits w 87 84) || bits w 36 29 == 0 || decide (64 < bits w 28 23 + ceilDiv (bits w 51 37 + 1) 256)
      || mvo.isSome
  | 11 =>
    !okDrainFmt (bits w 35 32) || bits w 55 54 == 3 || (bits w 55 54 == 2 && decide (63 < bits w 53 45))
      || (bit w 31 && (tfind c.outPorts (bits w 30 28)).isNone)
  | 12 => o == 0x3D && (bits w 39 32 == 0 || mvo != some (bits w 39 32))
  | _ => false

/-- ROW_RANGE: the first row outside the scratchpad (R118, R132). -/
def faultRow (c : Core) (o w : Nat) : Option Nat :=
  (readRows c o w ++ writeRows c o w).findSome? (rowsPast · (rowCount c.profile))

/-- IADDR: a target outside the instruction store (R120). -/
def faultIaddr (c : Core) (o w : Nat) : Bool :=
  if o = 0x86 then decide (bundleCount c.profile ≤ (rg c (bits w 54 49)).v.toNat)
  else 0x80 ≤ o && o ≤ 0x85 && decide (bundleCount c.profile ≤ bits w 48 37)

/-- Whether a guard's range holds a row (R258). -/
def guardHas (g : Guard) (r : Nat) : Bool := decide (g.base ≤ r) && decide (r < g.base + g.count)

/-- STRICT_ROWS: a read of a guarded row whose readable bit is 0 (R261). Receive rings are never guarded (R424). -/
def faultStrict (c : Core) (o w : Nat) : Option Nat :=
  if !c.strict then none
  else c.guards.findSome? fun g =>
    (upFrom g.base g.count).find? fun r => !setHas c.readable r && (readRows c o w).any (RowsHave · r)

/-- CHECK_OWNER: matrix work for the path that does not own the check column (R159). -/
def faultOwner (mvOwns : Bool) (o w : Nat) : Bool :=
  if o = 0x2A then mvOwns
  else if o = 0x30 then !mvOwns
  else if o = 0x38 then (if bits w 55 54 = 2 then !mvOwns else mvOwns)
  else false

/-- Every program fault of one slot at issue, in order of code, with its detail (R163, R914). -/
def slotFaults (c : Core) (mvOwns : Bool) (mvo : Option Nat) (op : SlotOp) : List (Nat × Nat × Nat) :=
  if op.opc = 0 then (if op.w = 0 then [] else [(op.slot, 2, 0)])
  else if opcClass op.opc = 0 ∨ opcClass op.opc ≠ slotClass c.profile op.slot then [(op.slot, 1, 0)]
  else
    (if faultReserved c op.opc op.w then [(op.slot, 2, 0)] else [])
    ++ (if faultOperand c mvo op.opc op.w then [(op.slot, 3, 0)] else [])
    ++ (match faultRow c op.opc op.w with | some r => [(op.slot, 4, r <<< 16)] | none => [])
    ++ (if faultIaddr c op.opc op.w then [(op.slot, 5, 0)] else [])
    ++ (match faultStrict c op.opc op.w with | some r => [(op.slot, 6, r <<< 16)] | none => [])
    ++ (if faultOwner mvOwns op.opc op.w then [(op.slot, 7, 0)] else [])

/-- The MVM chunk count that a CHKCS of the bundle must match: the bundle's own MVM, or the one issued before (R222). -/
def bundleMvo (m : MCore) (ops : List SlotOp) (op : SlotOp) : Option Nat :=
  if op.opc = 0x3D then
    match ops.find? (·.opc == 0x30) with
    | some x => some (bits x.w 36 29)
    | none => m.mvOpen
  else m.mvOpen

/-- Every program fault of a bundle at issue, by slot and code (R164). -/
def bundleFaults (c : Core) (m : MCore) (ops : List SlotOp) : List (Nat × Nat × Nat) :=
  ops.flatMap fun op => slotFaults c m.owner (bundleMvo m ops op) op

/-- The slots of a bundle as the instruction store holds it (R109). -/
def decodeBundle (p : Profile) (b : Nat) : List SlotOp :=
  let sl := fun i lo (wd : Nat) =>
    { slot := i, opc := bits b (lo + wd - 1) (lo + wd - 8), w := bits b (lo + wd - 9) lo : SlotOp }
  match p with
  | .s => [sl 0 192 64, sl 1 128 64, sl 2 64 64, sl 3 0 64]
  | .v => [sl 0 448 64, sl 1 384 64, sl 2 320 64, sl 3 256 64, sl 4 192 64, sl 5 128 64, sl 6 64 64, sl 7 0 64]
  | .m => [sl 0 448 64, sl 1 384 64, sl 2 288 96, sl 3 224 64, sl 4 128 96, sl 5 64 64, sl 6 0 64]

end Sys2Proof.Machine
end

