-- ==== Sys2Proof/Machine/Points.lean ====
section
/-! DEFINITION. Fault points, suspects, margin actions and entering detention (R707 to R712, R727, R731). -/

namespace Sys2Proof.Machine

/-- The effective cap (R715). -/
def effCap (s : State) : Nat := min s.chk.cap.toNat s.chk.ceiling.toNat

/-- Whether a resident timetable pins a unit that stands at a site (R86). -/
def isPinned (s : State) (u : Nat) : Bool :=
  s.plcs.any fun e => match e.2.img with
    | some im => im.units.any fun i => match i.pinned with | some v => v.val == u | none => false
    | none => false

/-- Whether the unit may take one more trim step (R711). -/
def trimPermitted (s : State) (u : Nat) : Bool :=
  let k := kindOf s u
  isCoreKind k && decide (trimOf s u < s.chk.maxTrim.toNat)
    && decide (railOf s (regionOf u) * 100 + (trimOf s u + 1) * 625 ≤ 85000)
    && decide (s.chk.inPower.toNat * 100 + (if k = some .mCore then 50 else 2) ≤ 98 * effCap s)

/-- Whether the unit's region may take one more margin clock step (R710, R712). -/
def clockPermitted (s : State) (u : Nat) : Bool :=
  let r := regionOf u
  kindOf s u != some .portTile && decide (marginClk s r < s.chk.maxClock.toNat)
    && !(s.plcs.any fun e => match e.2.img with
        | some im => im.units.any fun i => match i.pinned with | some v => regionOf v.val == r | none => false
        | none => false)

/-- Whether a unit's fence is decided. -/
def fencePending (s : State) (u : Nat) : Bool := s.chk.toFence.any fun e => e.unit.val == u

/-- A fence that is decided now (R31), with the kind of its report card entry. -/
def decideFence (s : State) (u : Nat) (kind : Option Nat) : State :=
  if fencePending s u then s
  else { s with chk := { s.chk with toFence := s.chk.toFence ++ [{ unit := toSite u, at_ := s.clk.master, kind := kind }] } }

/-- One margin action (R710): 0 a trim step, 1 a region clock step, 2 none permitted, so that the unit is to be fenced. -/
def marginAction (s : State) (u : Nat) (kind : Option Nat) : State × Nat :=
  if trimPermitted s u then ({ s with chk := { s.chk with trims := tmod 0 s.chk.trims u (· + 1) } }, 0)
  else if clockPermitted s u then
    ({ s with chk := { s.chk with marginFor := s.chk.marginFor ++ [toSite u] } }, 1)
  else (decideFence s u kind, 2)

def isDetained (s : State) (u : Nat) : Bool := s.chk.detained.any fun d => d.unit.val == u
def modDetained (s : State) (u : Nat) (f : Detained → Detained) : State :=
  { s with chk := { s.chk with detained := s.chk.detained.map fun d => if d.unit.val = u then f d else d } }

/-- A unit becomes suspect (R708, R710, R727). -/
def becomeSuspect (s : State) (u : Nat) (kind : Option Nat) : State :=
  let s := { s with chk := { s.chk with suspects := sat16 s.chk.suspects 1 } }
  let (s, a) := marginAction s u kind
  if a = 2 then s
  else if 512 ≤ s.chk.detained.length then decideFence s u kind
  else { s with chk := { s.chk with detained := s.chk.detained ++
      [{ unit := toSite u, out := false, clean := 0, fails := 0, action := BitVec.ofNat 2 a, since := s.clk.master,
         lastQuiz := s.clk.master }] } }

/-- A core leaves service but is not fenced: detained, it is out of service; else a reseat has moved its site (R713, R728, R771). -/
def leaveService (s : State) (u : Nat) : State :=
  let s := { s with chk := { s.chk with marginFor := s.chk.marginFor.filter fun v => v.val != u } }
  if isDetained s u then modDetained s u fun d => { d with out := true }
  else { s with brg := { s.brg with waiting := s.brg.waiting ++ [toSite u] } }

/-- A failure of a detained unit (R730, R731): the second takes a further margin action, the third fences. -/
def detentionFailure (s : State) (u : Nat) : State :=
  match s.chk.detained.find? fun d => d.unit.val == u with
  | none => s
  | some d =>
    let n := d.fails + 1
    let s := modDetained s u fun d => { d with fails := n, clean := 0 }
    if n = 1 then s
    else if n = 2 then
      let (s, a) := marginAction s u (some 9)
      modDetained s u fun d => { d with action := BitVec.ofNat 2 a }
    else decideFence s u (some 9)

/-- The sum of a unit's buckets (R708). -/
def pointSum (s : State) (u : Nat) : Nat := (tget [] s.chk.points u).foldl (· + ·) 0

/-- Fault points for a unit (R707, R708): a unit in detention counts a failure instead; `kind` is that of the entry of a fence that they
lead to. -/
def addPoints (s : State) (u n : Nat) (kind : Option Nat) : State :=
  if n = 0 then s
  else if isDetained s u then detentionFailure s u
  else
    let s := { s with chk := { s.chk with points := tmod [] s.chk.points u fun l =>
      match l with | [] => [n] | x :: t => (x + n) :: t } }
    if 4 ≤ pointSum s u then becomeSuspect s u kind else s

/-- The flags of an entry for fault points (R786): added, trim raised, clock lowered, detention entered; and its action. -/
def pointFlags (s s' : State) (u : Nat) : Nat :=
  128 * ofBool (!isDetained s u) + 64 * ofBool (decide (trimOf s u < trimOf s' u))
    + 32 * ofBool (decide (marginClk s (regionOf u) < marginClk s' (regionOf u))) + 16 * ofBool (isDetained s' u && !isDetained s u)
def pointAction (s s' : State) (u : Nat) : Nat :=
  if trimOf s u < trimOf s' u ∨ marginClk s (regionOf u) < marginClk s' (regionOf u) then 2 else 1

/-- Fault points that make an entry of their own (R50, R709, R730): one entry, here or with the fence that they lead to. -/
def pointsWithEntry (s : State) (u kind : Nat) : State :=
  let s' := addPoints s u 4 (some kind)
  if fencePending s' u then s'
  else postEntry s' { kind := kind, stamp := s.clk.master, unit := some u, action := pointAction s s' u, flags := pointFlags s s' u }

end Sys2Proof.Machine
end

