-- ==== Sys2Proof/Machine/Placements.lean ====
section
/-! DEFINITION. Placements as a whole: their cores, descriptors and completions (R559 to R565), silt, idle and hold
(R70 to R75), pausing of hall passes and channels (R274, R436), and stopping (R164, R911). -/

namespace Sys2Proof.Machine

/-- The cores of a placement, by site. -/
def coresOf (s : State) (p : Nat) : List Nat :=
  s.cores.filterMap fun e => if e.2.plc.map (·.val) = some p then some e.1 else none
/-- Changing every core of a placement. -/
def modCores (s : State) (p : Nat) (f : Core → Core) : State := (coresOf s p).foldl (fun s u => modCore s u f) s
/-- The placement of a core, if it has one. -/
def plcOf (s : State) (u : Nat) : Option Nat := (getCore s u).plc.map (·.val)
/-- A placement's lag: the largest of its stages' (R74). -/
def lagOf (s : State) (p : Nat) : Nat := (coresOf s p).foldl (fun a u => max a (getCore s u).lag) 0

/-! ## Samples in flight (R60, R88, R321) -/

/-- The host section of a placement's image (R548). -/
def hostOf (x : Placement) : Option HostSection := x.img.bind (·.host)
/-- Samples that the input stage has accepted: those that every intake entry has taken. -/
def accepted (x : Placement) : Nat :=
  match hostOf x with
  | some h => ((upFrom 0 h.intake.length).map fun i => tget 0 x.acceptN i).min?.getD 0
  | none => 0
/-- samples_in_flight of R321: accepted, and not all of their output rows have left the output stage. -/
def inFlight (x : Placement) : Nat := accepted x - x.left

/-- Rows of a descriptor's output (R555). -/
def outRows (h : HostSection) (d : Desc) : Nat := ceilDiv (d.n * h.outBytes) 512
/-- Samples of a descriptor whose output rows have all left the output stage. -/
def samplesLeft (h : HostSection) (d : Desc) : Nat :=
  ((upFrom 0 d.n).filter fun j =>
    (upFrom (j * h.outBytes / 512) (ceilDiv ((j + 1) * h.outBytes) 512 - j * h.outBytes / 512)).all (setHas d.sent ·)).length

/-- Whether a descriptor has been delivered at least in part and is not yet decided. -/
def descLive (d : Desc) : Bool :=
  match d.state with
  | .fetched => false
  | .decided _ _ => false
  | _ => true

/-- The delivered descriptor that a sample tag belongs to: one that is undecided, since its tag is then no other sample's (R88). -/
def tagDesc (s : State) (p tag : Nat) : Option Desc :=
  let l := (getDescs s p).filter fun d => d.state != .fetched && decide ((tag + 16384 - d.tag0) % 16384 < d.n)
  (l.find? descLive).orElse fun _ => l.head?

/-- Whether the sample that had a sample's tag before is neither committed nor discarded (R88). -/
def tagBusy (s : State) (p n : Nat) : Bool :=
  (getDescs s p).any fun d => descLive d && decide (d.first + 16384 ≤ n ∧ n < d.first + d.n + 16384)

/-- Output rows of a core leave its output stage for the alias of placement `p` (R321, R555). -/
def rowsLeave (s : State) (p : Nat) (op : BitVec 128) (done n : Nat) : State :=
  match tagDesc s p (bits op.toNat 103 90), hostOf (getPlc s p) with
  | some d, some h =>
    let off := bits op.toNat 71 67 * 65536 + bits op.toNat 127 112 + done
    let d' := { d with sent := (upFrom off n).foldl setAdd d.sent }
    modPlc (setDescs s p ((getDescs s p).map fun e => if e.index = d.index then d' else e)) p
      fun x => { x with left := x.left + samplesLeft h d' - samplesLeft h d }
  | _, _ => s

/-! ## Completions -/

/-- Writing the completions that are decided and whose output writes are settled, in index order (R561, R562). -/
def flushDescs (s : State) (p : Nat) : Nat → State
  | 0 => s
  | n + 1 =>
    match getDescs s p with
    | [] => s
    | d :: t =>
      match d.state with
      | .decided st rs =>
        if d.outAcks = 0 then
          flushDescs (postCompletion (setDescs s p t) p d.index st rs d.seq d.tag d.decided) p n
        else s
      | _ => s

/-- Deciding a descriptor as DISCARDED (R558, R565). -/
def discardDesc (s : State) (reason : Nat) (d : Desc) : Desc :=
  match d.state with
  | .decided _ _ => d
  | _ => { d with state := .decided 1 (if d.poison then 0x25 else reason), decided := s.clk.master }

/-- Discarding the descriptors of a ring that hold work in flight, or all that are undecided. -/
def discardDescs (s : State) (p reason : Nat) (all : Bool) : State :=
  let l := getDescs s p
  let lost := l.foldl (fun a d => if descLive d then a + d.n else a) 0
  let s := setDescs s p (l.map fun d => if descLive d || all then discardDesc s reason d else d)
  let s := modPlc s p fun x => { x with discarded := x.discarded + BitVec.ofNat 64 lost, left := accepted x,
                                        changed := x.changed || lost != 0 }
  flushDescs s p l.length

/-! ## Counters (R70 to R75, R575) -/

/-- Posting a COUNTERS event (R75, R212, R575). -/
def postCounters (s : State) (p : Nat) : State :=
  let x := getPlc s p
  let ev := x.siltE.foldl (fun a e => a + e.2.toNat) 0
  let kc := x.siltK.foldl (fun a e => a + e.2.toNat) 0
  let s := postEvent s 0x02 p ([ev, kc, x.idle.toNat, x.hold.toNat, x.flagged.toNat, x.special.toNat].map (BitVec.ofNat 64)
    ++ [x.committed, x.discarded])
  modPlc s p fun x => { x with changed := false, lastEvent := s.clk.master }

/-- Counting a slip of k K-cycles in a region (R70, R71), with its entry when it exceeds 1,024 (R75). -/
def addSlip (s : State) (p : Nat) (u : Option Nat) (r k : Nat) : State :=
  if k = 0 then s else
  let s := modPlc s p fun x => { x with siltE := tmod 0 x.siltE r (sat32 · 1), siltK := tmod 0 x.siltK r (sat48 · k),
                                        changed := true }
  if 1024 < k then postEntry s { kind := 0x05, level := 2, stamp := s.clk.master, unit := u, plc := some p, action := 1 }
  else s
/-- The K-cycles that a lowered clock suppresses (R72): one slip event for each lowering, `first` with its first cycles, and an entry where
its cycles pass 1,024 (R75). -/
def addLowered (s : State) (p r k : Nat) (first : Bool) : State :=
  let x := getPlc s p
  let was := if first then 0 else tget 0 x.lowK r
  let s := setPlc s p { x with siltE := if first then tmod 0 x.siltE r (sat32 · 1) else x.siltE, siltK := tmod 0 x.siltK r (sat48 · k),
                               lowK := tset 0 x.lowK r (was + k), changed := true }
  if was ≤ 1024 ∧ 1024 < was + k then postEntry s { kind := 0x05, level := 2, stamp := s.clk.master, plc := some p, action := 1 } else s
def addIdle (s : State) (p k : Nat) : State :=
  if k = 0 then s else modPlc s p fun x => { x with idle := sat48 x.idle k, changed := true }
def addHold (s : State) (p k : Nat) : State :=
  if k = 0 then s else modPlc s p fun x => { x with hold := sat48 x.hold k, changed := true }
/-- A count of a core's cycles as K-cycles (R43): 3 A-cycles are 4 K-cycles. -/
def kCycles (pr : Profile) (n : Nat) : Nat := match pr with | .m => ceilDiv (4 * n) 3 | _ => n
/-- The watchdog of a placement restarts (R314). -/
def progress (s : State) (p : Nat) : State := modPlc s p fun x => { x with watchdog := 0 }

/-! ## Hall passes, channels and streams of a placement -/

/-- Pausing or reopening the hall passes and receive channels of a placement (R274, R436). -/
def pauseDoors (s : State) (p : Nat) (b : Bool) : State :=
  modCores s p fun c => { c with passes := c.passes.map (fun h => { h with paused := b }),
                                 chans := tmap chan0 (fun _ x => { x with paused := b && chRole x == 2 }) c.chans }

/-- Discarding what the streams of a placement hold, with every source's credits as at its start (R321). -/
def discardStreams (s : State) (p : Nat) : State :=
  let mine := fun (q : Plc) => q.val == p
  { s with
    segs := s.segs.map fun g => if mine g.plc then { g with buf := [], transit := [], beats := 0, credits := g.cap, owed := 0 } else g,
    mcores := s.mcores.map fun e => if (coresOf s p).contains e.1 then (e.1, { e.2 with half := none, sent := 0 }) else e,
    fab := { s.fab with eps := s.fab.eps.map fun e =>
      if (coresOf s p).contains e.1 then (e.1, { e.2 with outq := e.2.outq.filter fun r => r.port.isNone }) else e },
    switches := tmap switch0 (fun _ w => { w with
      dq := w.dq.map fun e => (e.1, if mine e.2.plc then { e.2 with rows := [] } else e.2),
      tq := w.tq.map fun e => (e.1, if mine e.2.plc then { e.2 with rows := [] } else e.2) }) s.switches }

/-- Stopping the cores of a placement at their next bundle boundary: a waiting bundle does not issue (R126). -/
def stopCores (s : State) (p : Nat) : State :=
  modCores s p fun c => { c with run := (if c.run = .fenced then .fenced else .stopped), held := none, forming := [] }

/-- The end of a placement's service (R164, R911): inputs and gates shut, hall passes and channels paused, cores stopped,
stream contents discarded, lags cleared, every undecided descriptor DISCARDED with STOPPED, one STOPPED event with its
cause and the counters. -/
def stopPlacement (s : State) (p cause : Nat) : State :=
  let x := getPlc s p
  if x.state = .absent ∨ x.state = .stopped then s
  else
    let s := pauseDoors s p true
    let s := stopCores s p
    let s := discardStreams s p
    let s := modCores s p fun c => { c with lag := 0 }
    let s := modPlc s p fun x => { x with state := .stopped, drain := none, gatesShut := true, watchdog := 0 }
    let s := { s with rcv := { s.rcv with runs := tset none s.rcv.runs p none } }
    let s := discardDescs s p 0x21 true
    let s := postEvent (raiseCause s 3) 0x05 p [BitVec.ofNat 64 cause]
    postCounters s p

/-! ## Faults of cores (R163 to R170) -/

/-- The fault record with one more fault (R169, R170): the first is kept, later ones are counted. -/
def recordFault (c : Core) (code slot pc cyc detail : Nat) : Core :=
  if c.fcode = 0 then
    { c with fcode := BitVec.ofNat 8 code,
             frec0 := BitVec.ofNat 64 (fields [(code, 56), (slot % 8, 53), (pc % 1024, 43), (cyc % 2 ^ 32, 0)]),
             frec1 := BitVec.ofNat 64 detail }
  else { c with fcount := sat8 c.fcount 1 }

/-- A program fault at issue (R164): the lowest slot and code is recorded and the others counted, the core halts, and the
proctor stops and reports the placement. -/
def programFault (s : State) (u : Nat) (opc : Nat) (faults : List (Nat × Nat × Nat)) (pc cyc : Nat) : State :=
  match faults with
  | [] => s
  | (slot, code, detail) :: rest =>
    let c := getCore s u
    let c1 := recordFault c code slot pc cyc detail
    let c2 := rest.foldl (fun c f => recordFault c f.2.1 f.1 pc cyc f.2.2) c1
    let s := setCore s u { c2 with run := .halted, held := none, forming := [] }
    let live := match c.plc with | some p => (getDescs s p.val).any descLive | none => false
    let s := match c.plc with
      | some p => stopPlacement s p.val 0x03
      | none => s
    postEntry s { kind := 0x02, code := code, stamp := BitVec.ofNat 64 (timeAt s u), unit := some u,
                  cls := opcClass opc, opc := opc, pc := pc, slot := slot, plc := c.plc.map (·.val),
                  syn := BitVec.ofNat 64 detail, action := 6, flags := 2 + ofBool live }

/-- A program fault that no bundle raises (R309, R475, R556): the proctor stops and reports a placement in service. -/
def placementFault (s : State) (p u code cls opc : Nat) : State :=
  let live := (getDescs s p).any descLive
  if (getPlc s p).state ≠ .running ∧ (getPlc s p).state ≠ .loaded ∧ (getPlc s p).state ≠ .recovering then s
  else postEntry (stopPlacement s p 0x03)
    { kind := 0x02, code := code, stamp := s.clk.master, unit := some u, cls := cls, opc := opc, plc := some p, action := 6, flags := 2 + ofBool live }

/-- A detector fault at a unit that keeps no fault record of its own (R308, R384, R453): it is signalled to the proctor, with
the operation class and opcode of R784. -/
def raiseAt (s : State) (u code detail cls opc : Nat) : State :=
  { s with rcv := { s.rcv with raised := s.rcv.raised ++
      [{ code := BitVec.ofNat 8 code, unit := toSite u, stamp := BitVec.ofNat 64 (timeAt s u), rec0 := 0,
         rec1 := BitVec.ofNat 64 detail, cls := cls, opc := opc }] } }

/-- A detector fault of a core (R165): recorded and signalled; the core goes on. -/
def detectorFault (s : State) (u code slot pc cyc detail : Nat) : State :=
  let s := modCore s u fun c => recordFault c code slot pc cyc detail
  let r0 := fields [(code, 56), (slot % 8, 53), (pc % 1024, 43), (cyc % 2 ^ 32, 0)]
  { s with rcv := { s.rcv with raised := s.rcv.raised ++
      [{ code := BitVec.ofNat 8 code, unit := toSite u, stamp := BitVec.ofNat 64 (timeAt s u), rec0 := BitVec.ofNat 64 r0,
         rec1 := BitVec.ofNat 64 detail }] } }

/-- The K-cycle of module time in which a core's cycle lies. -/
def kAt (c : Core) (cyc : Nat) : Nat := c.startTick.toNat * 16 + c.lost + kCycles c.profile cyc

/-- The K-cycle at which the first sample of a core's descriptor of a sequence number was accepted (R701). -/
def acceptedAt (s : State) (u : Nat) (seq : Word) : Nat :=
  match (getCore s u).plc with
  | some p => (((getDescs s p.val).find? fun d => d.seq == seq).bind (·.accept)).getD 0
  | none => 0

/-- The arbitration record of a CHECKCOL or RESIDUE (R698), kept while its region's service tile has one of its four free. -/
def captureArb (s : State) (u code cyc : Nat) (orig : List Row) (check : List Int) : State :=
  if 4 ≤ (s.chk.arb.filter fun a => regionOf a.unit.val == regionOf u).length then s
  else
    let (r0, r1, at_) := match s.rcv.raised.getLast? with | some f => (f.rec0, f.rec1, f.stamp) | none => (0, 0, s.clk.master)
    let served := Config.servedSample u at_.toNat
    let k := acceptedAt s u ((served.map (·.2)).getD 0)
    { s with chk := { s.chk with arb := s.chk.arb ++
      [{ unit := toSite u, code := BitVec.ofNat 8 code, rec0 := r0, rec1 := r1, tag := served.elim 0 (·.1), lag := (getCore s u).lag,
         offset := kAt (getCore s u) cyc - k, orig := orig, check := check }] } }

/-- The syndrome of an uncorrectable codeword: open, but neither 0 nor 0xFFFF (R914). -/
def syndromeOf (fresh : Nat) : Nat :=
  let x := (Config.syndrome fresh).toNat
  if x = 0 ∨ x = 0xFFFF then 1 else x

/-- Counting corrected codewords of a scratchpad (R238). Each 64 are one fault point (R707): the proctor reads them off the counter as it
reaches them, and leaves the rest in it (assumption 82). -/
def countCorrected (s : State) (u n : Nat) : State :=
  if n = 0 then s else
  let x := (sat32 (getCore s u).corrected n).toNat
  addPoints (modCore s u fun c => { c with corrected := BitVec.ofNat 32 (x % 64) }) u (x / 64) (some 1)

/-- A row read by a core (R228, R234 to R238): corrected codewords are counted, the first uncorrectable one raises SWC_UE, and a row
with a poisoned or uncorrectable codeword is delivered poisoned as a whole. -/
def coreRead (s : State) (u r slot pc cyc : Nat) : State × RowRead :=
  let rd := scratchRead s u r
  let rd := { rd with pois := if rd.pois = 0 then 0 else 2 ^ 32 - 1 }
  let s := { s with free := rd.free }
  let s := countCorrected s u rd.corr
  match rd.ue with
  | none => (s, rd)
  | some k =>
    (detectorFault s u 0x20 slot pc cyc (fields [(k, 48), (r, 16), (syndromeOf rd.free, 0)]), rd)

end Sys2Proof.Machine
end

