-- ==== Sys2Proof/Machine/Fabric.lean ====
section
/-! DEFINITION. The send side of the packet fabric: the outbound engine (R230, R353, R361 to R362, R375, R376), lookups and
transmissions (R337 to R340), completion and failure of operations (R374, R382, R383), and re-sends (R377 to R381). -/

namespace Sys2Proof.Machine

/-! ## Small parts -/

/-- A count of an endpoint (R394), numbered in the order of its table. -/
def countEp (s : State) (k i n : Nat) : State :=
  if n = 0 then s else modEp s k fun e => { e with cnt := tmod 0 e.cnt i (sat32 · n) }

/-- The site and the ID that an endpoint's packets carry (R354, R538). -/
def epSite (s : State) (k : Nat) : Nat :=
  if k < 12800 then k else (injectSite (tabOf s s.fab.active) (k - 12800)).getD (spurSite (k - 12800))
def epId (s : State) (k : Nat) : Nat := if k < 12800 then idOfSite s k else k

/-- A completion slot word (R103). -/
def slotWord (st reason rows time : Nat) : Word :=
  BitVec.ofNat 64 (fields [(st, 62), (reason % 256, 48), (rows % 65536, 32), (time % 2 ^ 32, 0)])
def setSlot (s : State) (u k : Nat) (w : Word) : State := modCore s u fun c => { c with slots := tset 0 c.slots k w }

/-- What the rows of a packet are worth to the header's source-poison field (R354). -/
def srcPoison (rows : List PRow) : BitVec 2 :=
  match rows with
  | [] => 0
  | [a] => BitVec.ofNat 2 (ofBool (a.poison != 0))
  | a :: b :: _ => BitVec.ofNat 2 (ofBool (a.poison != 0) + 2 * ofBool (b.poison != 0))
/-- The CRC-32C of a payload alone (R375). -/
def payloadCrc (rows : List PRow) : BitVec 32 :=
  BitVec.ofNat 32 (crc32c (rows.foldr (fun r acc => r.data.toNat + acc * 2 ^ 4096) 0) (512 * rows.length))

/-- Whether a destination is reached through a port, so that the remote timeout applies (R381). -/
def isKind1 (id : Nat) : Bool := decide (12800 ≤ id)

/-- The operation word of the packet of an operation whose rows from `done` it carries (R355, R413, R458). -/
def opWordAt (ptype done : Nat) (op : BitVec 128) : BitVec 128 :=
  if ptype = 4 then op + (BitVec.ofNat 128 done <<< 101)
  else if ptype = 5 then op + (BitVec.ofNat 128 done <<< 112)
  else if ptype = 2 ∧ done = 0 then op ||| (1 <<< 87)
  else op

/-! ## A packet at the end of its path through a port (R340, R344) -/

/-- Whether a destination router accepts a packet whose ID it finds to name `r` (R344). -/
def acceptsAs (s : State) (k : Packet) (r : Option Resolved) : Bool :=
  let t := tabOf s k.epoch
  (match r with
   | some (.site u) => u == k.pos
   | some (.port n) => injectSite t n == some k.pos && (k.dst.toNat < 13312 || (tget none t.remote (k.dst.toNat - 13312)).isSome)
   | none => false)
  && (k.epoch == s.fab.active || s.fab.retiring) && !isFenced s k.pos

def accepts (s : State) (k : Packet) : Bool := acceptsAs s k (lookupId (tabOf s k.epoch) k.dst.toNat)

/-- The code that a router answers with when it does not accept (R345). -/
def rejectCode (s : State) (k : Packet) : Nat := if k.epoch = s.fab.active then 0x4B else 0x4A

/-- An ACK (code none) or NAK to the source named in a packet's header (R373); ACKs and NAKs are never answered. -/
def answerOf (s : State) (k : Packet) (code : Option Nat) : Packet :=
  { dst := k.src, dstSite := k.srcSite, epoch := s.fab.active, srcSite := k.pos, src := k.dst,
    ptype := match code with | none => 7 | some _ => 8, injTime := BitVec.ofNat 16 (timeAt s k.pos), seq := 0, opn := false,
    srcPois := 0, last := true, op := BitVec.ofNat 128 (k.seq.toNat * 2 ^ 112 + code.getD 0 * 2 ^ 104), rows := [],
    pos := k.pos, toPort := k.fromPort, fromPort := none }

/-- Whether a packet that stands at its injection point leaves the module there: not for a ring engine. -/
def leavesModule (k : Packet) : Bool :=
  k.pos == k.dstSite && k.toPort.isSome && !(12800 ≤ k.dst.toNat && k.dst.toNat < 12840)

/-- Link flits that a packet of n rows fills: 8 payload codewords for each of its transfers, 13 in a flit (R511, R512). -/
def flitsOf (n : Nat) : Nat := ceilDiv (8 * (1 + 4 * n)) 13
def outFlits (o : Out) : Nat := match o with | .packet _ _ _ rows => flitsOf rows.length | _ => 1

/-- Sequenced flits leave a port: they are numbered, kept for replay, and carry the acknowledgement and credits owed
(R513, R516, R518). -/
def sendFlits (s : State) (n : Nat) (o : Out) : State :=
  let k := outFlits o
  putOut (modPort s n fun x => { x with
    txSeq := x.txSeq + BitVec.ofNat 12 k, buffer := x.buffer ++ (upFrom 0 k).map fun i => x.txSeq + BitVec.ofNat 12 i,
    credits := x.credits - k, ackOwed := false, toReturn := 0, lastAdv := if x.buffer.isEmpty then s.clk.master else x.lastAdv }) o

/-- What waits at a port leaves while it is up, holds credits and has replay buffer (R513, R518). -/
def txGo (s : State) (n : Nat) : List Out → State
  | [] => modPort s n fun x => { x with txq := [] }
  | o :: t =>
    let x := getPort s n
    if x.state = .up ∧ !s.clk.gated ∧ x.buffer.length + outFlits o ≤ 1024 ∧ outFlits o ≤ x.credits then txGo (sendFlits s n o) n t
    else modPort s n fun x => { x with txq := o :: t }
def txPump (s : State) (n : Nat) : State := txGo s n (getPort s n).txq
/-- A packet for a port's link. -/
def sendOn (s : State) (n : Nat) (o : Out) : State := txPump (modPort s n fun x => { x with txq := x.txq ++ [o] }) n

/-- Whether a ring engine sent a packet (R538). -/
def fromRing (id : Nat) : Bool := decide (12800 ≤ id ∧ id < 12832)

/-! ## Crossings of die boundaries (R354, R357, R669) -/

/-- The position of edge tile i of the eight along a side of a die, from the die's own corner (R20, R357). -/
def edgeOffset (i : Fin 8) : Nat := ([2, 7, 12, 17, 22, 27, 32, 37][i.val]?).getD 2

/-- The crossing index for coordinates a of the source and b of the destination along the boundary (R357): rotated with the sequence
over the tiles within the bounding box, or the nearest tile. -/
def crossIndex (a b seq : Nat) : Fin 8 :=
  let lo := min a b
  let hi := max a b
  let inBox := (upFrom 0 (hi / 40 + 1)).flatMap fun d => (List.finRange 8).filter fun i =>
    decide (lo ≤ d * 40 + edgeOffset i ∧ d * 40 + edgeOffset i ≤ hi)
  match inBox with
  | [] => Fin.ofNat 8 ((leastKey ((List.finRange 8).map fun i => (max (a % 40) (edgeOffset i) - min (a % 40) (edgeOffset i), i.val))).getD 0)
  | l => (l[seq % l.length]?).getD 0

/-- Whether an edge tile has a link that is not disabled (R669). -/
def crossable (s : State) (u : Nat) : Bool :=
  tget .full s.brg.links (edgeLinkKey u 0) != .disabled || tget .full s.brg.links (edgeLinkKey u 1) != .disabled

/-- The next tile index, in increasing order from i, that serves (R669). -/
def nextIndex (ok : Fin 8 → Bool) (i : Fin 8) : Option (Fin 8) := ((List.finRange 8).map fun j => i + j).find? ok

/-- Die columns or rows from one to another, and those whose far boundary lies between them. -/
def spanOf (a b : Nat) : List Nat := (upFrom 0 (max a b + 1)).filter fun d => decide (min a b ≤ d)
def bordersOf (a b : Nat) : List Nat := (upFrom 0 (max a b)).filter fun d => decide (min a b ≤ d)

/-- The crossing indices that the source router writes into a head flit (R354, R357, R669): a tile serves if it has a usable link
at each boundary that a minimal path may cross. -/
def routed (s : State) (k : Packet) : Packet :=
  let (ax, ay, bx, bY) := (siteX k.pos, siteY k.pos, siteX k.dstSite, siteY k.dstSite)
  let okX := fun i => (bordersOf (ax / 40) (bx / 40)).all fun c => (spanOf (ay / 40) (bY / 40)).all fun r =>
    crossable s (siteXY (c * 40 + 39) (r * 40 + edgeOffset i))
  let okY := fun i => (bordersOf (ay / 40) (bY / 40)).all fun r => (spanOf (ax / 40) (bx / 40)).all fun c =>
    crossable s (siteXY (c * 40 + edgeOffset i) (r * 40 + 39))
  { k with crossX := nextIndex okX (crossIndex ay bY k.seq.toNat), crossY := nextIndex okY (crossIndex ax bx k.seq.toNat) }

/-- The module number that the injection point sends with a packet for a remote module alias (R336, R340). -/
def remoteNumber (s : State) (k : Packet) : Option (BitVec 12) :=
  if k.dst.toNat < 13312 then none else tget none (tabOf s k.epoch).remote (k.dst.toNat - 13312)

/-- The operation word of a WRITE to a remote module alias with the module number in bits 217:206 (R524). -/
def stampRemote (k : Packet) (m : Option (BitVec 12)) : Packet :=
  { k with op := k.op ||| ((m.getD 0).setWidth 128 <<< 78) }

/-- Putting a packet into the fabric, or over the link when it already stands at its injection point (R340); a ring engine's
host traffic leaves by its own port (R923). -/
def launch (s : State) (k : Packet) : State :=
  if leavesModule k then
    if k.ptype = 7 ∨ k.ptype = 8 ∨ fromRing k.src.toNat ∨ accepts s k then
      let m := remoteNumber s k
      sendOn s (k.toPort.getD 0).val (.packet (k.toPort.getD 0) m (headOf (stampRemote k m)) k.rows)
    else { s with fab := { s.fab with flight := s.fab.flight ++ [routed s (answerOf s k (some (rejectCode s k)))] } }
  else { s with fab := { s.fab with flight := s.fab.flight ++ [routed s k] } }

/-- Sending an answer (R373): an answer to a host packet that stands at its injection point leaves at once. -/
def answer (s : State) (k : Packet) (code : Option Nat) : State :=
  if k.ptype = 7 ∨ k.ptype = 8 then s else launch s (answerOf s k code)

/-! ## The end of an operation -/

/-- A send channel after a message's answer (R408, R412, R426, R429, R438). -/
def chanAnswered (c : Core) (ch : Nat) (seq : BitVec 16) (code : Option Nat) : Core :=
  let x := getChan c ch
  if chRole x ≠ 1 then c else
  let n := x.inFlight - 1
  let x := { x with inFlight := n }
  let x : Chan := match code with
    | none => { x with cDelivered := sat32 x.cDelivered 1 }
    | some e =>
      { x with sendState := if x.sendState = .ready then .refused else x.sendState,
               lastRef := if x.sendState = .ready then BitVec.ofNat 8 e else x.lastRef,
               -- earlier in issue order: behind the next sequence by less than half the range
               nextSeq := if seq ≠ x.nextSeq ∧ (x.nextSeq - seq).toNat < 32768 then seq else x.nextSeq,
               cDropped := sat32 x.cDropped 1 }
  setChan c ch (if n = 0 ∧ x.sendState = .resuming then { x with sendState := .ready } else x)

/-- Codes of port tiles and ring engines that count as a program fault of the requesting core (R475, R556). -/
def isProgramRefusal (code : Nat) : Bool := (0x70 ≤ code && code ≤ 0x74) || code == 0x4D || code == 0x4E

/-- The type of an operation's packets (R355). -/
def opType : OpKind → Nat
  | .write => 1 | .message _ _ => 2 | .dmaRead _ => 3 | .dmaWrite => 4 | .reply => 5 | .gather => 6 | .input _ _ => 1
  | .output _ _ => 4

/-- An intake operation of a descriptor is answered: with the last, its samples are in the pipeline (R559). -/
def inputAnswered (d : Desc) : Desc :=
  { d with inAcks := d.inAcks - 1, state := if d.inAcks ≤ 1 ∧ d.state = .delivering then .running else d.state }

/-- An operation ends (R374, R382, R383): done without a code, failed with one. -/
def finishOp (s : State) (k : Nat) (o : Op) (code : Option Nat) : State :=
  let e := getEp s k
  let s := setEp s k { e with
    ops := e.ops.filter (·.id != o.id), recs := e.recs.filter (·.op != o.id), outq := e.outq.filter (·.id != o.id),
    flows := e.flows.map fun f =>
      if e.recs.any fun r => r.op == o.id && r.hdr.dst == f.dst then { f with lastAct := s.clk.master } else f }
  let s := match o.slot with
    | some n =>
      if k < 12800 then
        setSlot s k n (match code with
          | none => slotWord 2 0 o.rows (timeAt s k)
          | some x => slotWord 3 x o.acked (timeAt s k))
      else s
    | none => s
  let s := match o.kind with
    | .message ch seq => modCore s k fun c => chanAnswered c ch seq code
    | .input r index =>
      setDescs s r.val ((getDescs s r.val).map fun d => if d.index = index then inputAnswered d else d)
    | .output r index =>
      let s := modPort s (k - 12800) fun x => { x with outRows := x.outRows - o.rows }
      let s := setDescs s r.val ((getDescs s r.val).map fun d =>
        if d.index = index then { d with outAcks := d.outAcks - 1, hostBad := d.hostBad || code.isSome } else d)
      if (tget none s.rcv.runs r.val).isSome then s else flushDescs s r.val (getDescs s r.val).length
    | .dmaRead _ => if code.isSome then modCore s k fun c => { c with dmaIn := c.dmaIn.filter (fun d => d.op != o.id) } else s
    | _ => s
  match code with
  | none => s
  | some x =>
    let s := countEp s k 6 1
    let u := epSite s k
    let s := postEntry s { kind := 0x04, code := x, stamp := BitVec.ofNat 64 (timeAt s u), unit := some u, cls := 14,
                           opc := opType o.kind, plc := plcOf s u }
    let s := if (x = 0x50 ∨ x = 0x51 ∨ x = 0x52) ∧ o.dst.toNat < 12800 then
        let s := if isCoreKind (kindOf s k) then modCore s k fun c => recordFault c 0x38 o.bslot o.pc o.cyc 0 else s
        raiseAt s ((siteOfId s o.dst.toNat).getD o.dst.toNat) 0x38 0 14 (opType o.kind) else s
    if isProgramRefusal x ∧ k < 12800 then
      match plcOf s k with
      | some p => if 0x70 ≤ x then placementFault s p k x 15 (opType o.kind) else placementFault s p k x 14 (opType o.kind)
      | none => s
    else s

def findOp (s : State) (k id : Nat) : Option Op := (getEp s k).ops.find? (·.id == id)
def finishById (s : State) (k id : Nat) (code : Option Nat) : State :=
  match findOp s k id with
  | some o => finishOp s k o code
  | none => s

/-! ## Transmission -/

/-- The header and path of a packet that a lookup sends (R337), or none where the ID is invalid (R339). -/
def address (s : State) (k : Nat) (h : Packet) : State × Option Packet :=
  let u := epSite s k
  let h := { h with epoch := s.fab.active, srcSite := u, src := BitVec.ofNat 14 (epId s k), pos := u,
                    injTime := BitVec.ofNat 16 (timeAt s u) }
  if 12800 ≤ k ∧ 12840 ≤ h.dst.toNat then (s, some { h with dstSite := u, toPort := some (Fin.ofNat 32 (k - 12800)) })
  else
  let (s, r) := routerLookup s u s.fab.active h.dst.toNat
  (s, match r with
  | some (.site v) => some { h with dstSite := v, toPort := none }
  | some (.port n) =>
    -- only a WRITE goes to a remote module (R524)
    if 13312 ≤ h.dst.toNat ∧ h.ptype ≠ 1 then none
    else (injectSite (tabOf s s.fab.active) n).map fun v => { h with dstSite := v, toPort := some (Fin.ofNat 32 n) }
  | none => none)

/-- Rows that the engine reads for a packet, from row `b` (R237); `pstate` poisons what a core in the poison state sends. -/
def readOut (s : State) (u b slot pc cyc : Nat) : Nat → State × List PRow
  | 0 => (s, [])
  | n + 1 =>
    let (s, rd) := coreRead s u b slot pc cyc
    let ps := if (getCore s u).pstate then 2 ^ 32 - 1 else rd.pois
    let (s, l) := readOut s u (b + 1) slot pc cyc n
    (s, { data := BitVec.ofNat 4096 rd.data, poison := BitVec.ofNat 32 ps } :: l)

/-! ## Segments of streams (R286, R291) -/

/-- The lowest site of a cluster of the module, which stands for its stream switch. -/
def switchSite (c : Nat) : Nat := clusterSite (c / 25) (c % 25)

/-- The site of a segment's source (R309). -/
def sourceSite (g : Seg) : Nat := match g.src with | .port u _ => u.val | .slot c _ => switchSite c.val

/-- The sites between which a segment runs. -/
def segEnds (g : Seg) : Nat × Nat :=
  (sourceSite g, match g.dst with
    | .ring u _ _ _ _ => u.val | .data c _ => switchSite c.val | .token c _ => switchSite c.val)

def findSeg (s : State) (p id : Nat) : Option Seg := s.segs.find? fun g => g.plc.val == p && g.id == id
def modSeg (s : State) (p id : Nat) (f : Seg → Seg) : State :=
  { s with segs := s.segs.map fun g => if g.plc.val = p ∧ g.id = id then f g else g }
/-- The segment of a core's output port (R290). -/
def portSeg (s : State) (u p : Nat) : Option Seg :=
  match tfind (getCore s u).outPorts p with
  | some (q, id) => findSeg s q.val id
  | none => none

/-- Places in the 32 rows of a port's send buffer. -/
def bufRoom (g : Seg) : Nat := 32 - g.buf.length
/-- Rows of a stage that runs behind by `lag` as they travel. -/
def asStream (lag : Nat) (rows : List PRow) : List SRow := rows.map fun r => { data := r.data, poison := r.poison, stamp := 0, lag := lag }

/-- Rows enter the send buffer of a core's output port (R291): they leave in order, with their poison. -/
def pushRows (s : State) (p id : Nat) (rows : List SRow) : State :=
  progress (modSeg s p id fun g => { g with buf := g.buf ++ rows }) p

/-- The row that arrives next at the end of a segment: the oldest on its links, or one that has left the send buffer in this tick. -/
def segHead (g : Seg) : Option SRow := (g.transit ++ g.buf).head?
def segPop (g : Seg) : Seg :=
  match g.transit with
  | _ :: t => { g with transit := t }
  | [] => { g with buf := g.buf.drop 1 }

/-- One frame at a segment's source: rows leave the send buffer, four beats each, in its reserved cycles (R280, R291). -/
def segLeave (g : Seg) : Seg :=
  let b := g.beats + g.route.frames.length
  let n := min g.buf.length (b / 4)
  { g with transit := g.transit ++ g.buf.take n, buf := g.buf.drop n, beats := if g.buf.length ≤ n then 0 else b - 4 * n }

/-- The flow of an endpoint to a destination. -/
def findFlow (e : Endpoint) (dst : Epid) : Option Flow := e.flows.find? (·.dst == dst)
def setFlow (e : Endpoint) (f : Flow) : Endpoint :=
  { e with flows := if e.flows.any (·.dst == f.dst) then e.flows.map (fun g => if g.dst = f.dst then f else g)
                    else e.flows ++ [f] }

/-- One step of the outbound engine: the head operation sends its next packet or hands over its stream rows. The second
part tells whether the engine went on; it waits for a message answer (R408), a flow (R362), a record (R376) or the end of a
fabric drain (R349). -/
def pumpOne (s : State) (k : Nat) : State × Bool :=
  let e := getEp s k
  match e.outq with
  | [] => (s, false)
  | r :: rest =>
    match r.port with
    | some p =>
      match tfind (getCore s k).outPorts p, portSeg s k p with
      | some (q, id), some g =>
        let n := min (bufRoom g) (r.count - r.done)
        if n = 0 then (s, false)
        else
          let s := setEp s k { e with outq := if r.done + n = r.count then rest else { r with done := r.done + n } :: rest }
          let (s, rows) := match r.rows with
            | some l => (s, (l.drop r.done).take n)
            | none => readOut s k (r.base + r.done) r.bslot r.pc r.cyc n
          (pushRows s q.val id (asStream (getCore s k).lag rows), true)
      | _, _ => (setEp s k { e with outq := rest }, true)
    | none =>
      let limited := match r.kind with
        | .message ch _ => r.done == 0 && decide (8 ≤ (getChan (getCore s k) ch).inFlight)
        | _ => false
      if s.fab.drainFrom.isSome then (s, false)
      else if limited then
        if r.waited then (s, false)
        else
          let s := setEp s k { e with outq := { r with waited := true } :: rest }
          match r.kind with
          | .message ch _ => (modCore s k fun c => let x := getChan c ch
              setChan c ch { x with cStalled := sat32 x.cStalled 1 }, false)
          | _ => (s, false)
      else if (findFlow e r.dst).isNone ∧ 64 ≤ e.flows.length then (s, false)
      else if 128 ≤ e.recs.length then
        if k < 12800 ∧ isCoreKind (kindOf s k) ∧ !Config.recordInTime s.free then
          let s := bumpFree (setEp s k { e with outq := rest, ops := e.ops.filter (·.id != r.id) })
          (programFault s k (if r.ptype = 2 then 0x8B else if r.ptype = 3 ∨ r.ptype = 4 then 0x8C else 0x8A)
            [(r.bslot, 0x39, 0)] r.pc r.cyc, true)
        else (bumpFree s, false)
      else
        let f := (findFlow e r.dst).getD { dst := r.dst, next := 0, busy := false, lastAct := s.clk.master }
        let m := min 2 (r.count - r.done)
        let (s, rows) := if r.ptype = 3 then (s, []) else (match r.rows with
          | some l => (s, (l.drop r.done).take m)
          | none => readOut s k (r.base + r.done) r.bslot r.pc r.cyc m)
        let h : Packet := {
          dst := r.dst, dstSite := 0, epoch := false, srcSite := 0, src := 0, ptype := r.ptype, injTime := 0,
          seq := f.next, opn := f.next == 0, srcPois := srcPoison rows, last := r.ptype == 3 || r.done + m == r.count,
          op := opWordAt r.ptype r.done r.op, rows := rows, pos := 0, toPort := none, fromPort := none }
        match address s k h with
        | (s, none) => (finishById s k r.id (some 0x4B), true)
        | (s, some h) =>
          let e := getEp s k
          let rc : Rec := {
            hdr := { h with rows := [] }, op := r.id, sent := 1, lastTx := s.clk.master, crc := payloadCrc rows,
            base := if r.rows.isSome ∨ r.ptype = 3 then none else some (r.base + r.done), count := rows.length,
            kept := if r.rows.isSome then rows else [], delayed := none }
          let e := setFlow e { f with next := f.next + 1, lastAct := s.clk.master }
          let e := { e with recs := e.recs ++ [rc],
                            outq := if h.last then rest else { r with done := r.done + m } :: rest }
          let s := setEp s k e
          let s := match r.kind with
            | .message ch _ => if r.done = 0 then modCore s k fun c => let x := getChan c ch
                setChan c ch { x with inFlight := x.inFlight + 1 } else s
            | _ => s
          let s := if r.ptype = 1 ∧ k < 12800 ∧ isOutAlias r.dst.toNat then rowsLeave s (r.dst.toNat - 12832) r.op r.done m else s
          (launch (countEp s k 0 1) h, true)

/-- The engine runs until it waits or has nothing left. -/
def pumpN (s : State) (k : Nat) : Nat → State
  | 0 => s
  | n + 1 => match pumpOne s k with
    | (s, true) => pumpN s k n
    | (s, false) => s

/-- The outbound engine serves what it can (R230); during a fabric drain it sends no packet (R349), and stream rows go on. -/
def pump (s : State) (k : Nat) : State := pumpN s k ((getEp s k).outq.foldl (fun a r => a + r.count + 1) 1)

/-- A packet operation enters the outbound engine (R230, R353), with the completion slot it may name (R133). -/
def enqueue (s : State) (k : Nat) (r : OutReq) (slot : Option Nat) : State :=
  let e := getEp s k
  let id := e.nextOp
  let o : Op := { id := id, kind := r.kind, dst := r.dst, slot := slot, rows := r.count, acked := 0,
                  left := if r.ptype = 3 then 1 else ceilDiv r.count 2, failed := false, pc := r.pc, bslot := r.bslot, cyc := r.cyc }
  let e := { e with nextOp := id + 1, outq := e.outq ++ [{ r with id := id }],
                    ops := if r.port.isSome then e.ops else e.ops ++ [o] }
  pump (setEp s k e) k

/-- Taking a completion slot over (R134): no earlier operation writes it any more. -/
def takeSlot (s : State) (k n : Nat) : State :=
  modEp s k fun e => { e with ops := e.ops.map fun o => if o.slot = some n then { o with slot := none } else o }

/-! ## Re-sends -/

/-- The rows of a record, read again for the bundle that issued its operation where its source has a scratchpad (R377, R915). -/
def recRows (s : State) (k : Nat) (r : Rec) : State × List PRow :=
  match r.base with
  | some b => match findOp s k r.op with
    | some o => readOut s k b o.bslot o.pc o.cyc r.count
    | none => readOut s k b 0 0 0 r.count
  | none => (s, r.kept)

/-- A record of a destination's packet with this sequence. -/
def findRec (e : Endpoint) (dst : Epid) (seq : BitVec 16) : Option Rec :=
  e.recs.find? fun r => r.hdr.dst == dst && r.hdr.seq == seq
def modRec (s : State) (k : Nat) (dst : Epid) (seq : BitVec 16) (f : Rec → Rec) : State :=
  modEp s k fun e => { e with recs := e.recs.map fun r => if r.hdr.dst = dst ∧ r.hdr.seq = seq then f r else r }

/-- Whether a packet is the lowest unacknowledged one of its flow (R368). -/
def isLowestRec (e : Endpoint) (r : Rec) : Bool :=
  (e.recs.find? fun x => x.hdr.dst == r.hdr.dst).map (·.hdr.seq) == some r.hdr.seq

/-- A further transmission of a packet (R338, R368, R377, R378); `counted` unless it follows a reroute (R346); none during a
fabric drain (R349). -/
def resend (s : State) (k : Nat) (r : Rec) (counted : Bool) : State :=
  if s.fab.drainFrom.isSome then s else
  let (s, rows) := recRows s k r
  if payloadCrc rows ≠ r.crc then finishById s k r.op (some 0x52)
  else match address s k r.hdr with
    | (s, none) => finishById s k r.op (some 0x4B)
    | (s, some h) =>
      let e := getEp s k
      let busy := match findFlow e r.hdr.dst with | some f => f.busy | none => false
      let h := { h with rows := rows, srcPois := srcPoison rows, opn := r.hdr.opn || (busy && isLowestRec e r) }
      let s := modRec s k r.hdr.dst r.hdr.seq fun x =>
        { x with sent := if counted then x.sent + 1 else x.sent, lastTx := s.clk.master, delayed := none,
                 hdr := { x.hdr with epoch := h.epoch } }
      launch (if counted then countEp s k 1 1 else s) h

/-- A re-send unless the packet has been transmitted five times (R380). -/
def resendOrFail (s : State) (k : Nat) (r : Rec) : State :=
  if 5 ≤ r.sent then finishById s k r.op (some 0x50) else resend s k r true

/-- An acknowledgement for a record (R374): the operation is done when none of its packets is left. -/
def ackRec (s : State) (k : Nat) (r : Rec) : State :=
  let e := getEp s k
  let e := { e with recs := e.recs.filter (fun x => !(x.hdr.dst == r.hdr.dst && x.hdr.seq == r.hdr.seq)),
                    flows := e.flows.map (fun f => if f.dst = r.hdr.dst then { f with lastAct := s.clk.master } else f) }
  let s := setEp s k e
  match findOp s k r.op with
  | none => pump s k
  | some o =>
    let o := { o with acked := o.acked + r.count, left := o.left - 1 }
    let s := modEp s k fun e => { e with ops := e.ops.map fun x => if x.id = o.id then o else x }
    pump (if o.left = 0 then finishOp s k o none else s) k

/-- A refusal for a record (R346, R379, R380, R385). -/
def nakRec (s : State) (k : Nat) (r : Rec) (code : Nat) : State :=
  if code = 0x4A then
    let s := countEp s k 2 1
    if r.hdr.epoch = s.fab.active then pump (finishById s k r.op (some 0x51)) k else resend s k r false
  else if code = 0x41 ∨ code = 0x48 ∨ code = 0x49 then
    let s := countEp s k 4 1
    let s := if code = 0x49 then modEp s k fun e =>
      { e with flows := e.flows.map fun f => if f.dst = r.hdr.dst then { f with busy := true } else f } else s
    if 5 ≤ r.sent then pump (finishById s k r.op (some 0x50)) k
    else if code = 0x48 then resend s k r true
    else modRec s k r.hdr.dst r.hdr.seq fun x => { x with delayed := some s.clk.master }
  else pump (finishById (countEp s k 5 1) k r.op (some code)) k

end Sys2Proof.Machine
end

