-- ==== Sys2Proof/Machine/Reads.lean ====
section
/-! DEFINITION. Cycles of a core and the row reads of an M-core's units in time (R43, R107, R161, R173, R179, R215, R221). -/

namespace Sys2Proof.Machine

/-! ## Cycles -/

/-- Cycles of a core's issue clock in a count of K-cycles (R43). -/
def cyclesOf (p : Profile) (k : Nat) : Nat := match p with | .m => 3 * k / 4 | _ => k

/-- The K-cycles of a core since it started, without those that a lowered clock has suppressed (R37). -/
def kPast (c : Core) (now : Nat) : Nat := (now - c.startTick.toNat) * 16 - c.lost

/-- The cycle of a core or of its units at this moment: its issue cycle, or the first of the present T tick (assumption 74). -/
def unitNow (s : State) (u : Nat) : Nat :=
  let c := getCore s u
  max c.cycle (cyclesOf c.profile (kPast c (timeAt s u)))

/-! ## Requests with a declared bound (R65, R74) -/

/-- The declared bound of a counter of a core (R65). -/
def boundOf (c : Core) (ctr : Nat) : Option Nat := (c.bounds.find? fun b => b.counter.toNat == ctr).map (·.bound)

/-- Core `u` is to receive n rows on a counter that core `v` requests or sends in its cycle `cyc`: the static report has them arrive by
its own schedule of the request, so `v`'s lag is taken off. -/
def expectRows (s : State) (v u ctr cyc n : Nat) : State :=
  let r := getCore s v
  modCore s u fun c =>
    { c with
      asked := tmod 0 c.asked ctr (· + BitVec.ofNat 32 n)
      dues := c.dues ++ [{ counter := ctr, start := tget 0 c.asked ctr, n := n, lag := r.lag,
                           at_ := (boundOf c ctr).map fun b => kAt r cyc - r.lag + b }] }

/-! ## Reads of the units -/

/-- A-cycles from the last read of a unit's command to its end (R162). -/
def afterRead (opc : Nat) : Nat := if opc = 0x30 then 25 else if opc = 0x3D then 10 else 17

/-- One row is read for a command. -/
def readOne (s : State) (u : Nat) (r : URead) : State :=
  let (s, rd) := coreRead s u r.row r.cmd.slot r.cmd.pc r.cmd.cyc
  modM s u fun m => { m with got := m.got ++ [{ opc := r.cmd.opc, part := r.part, data := BitVec.ofNat 4096 rd.data, pois := rd.pois }] }

/-- The reads of A-cycle t: those of the vector port, and up to four others, the matrix-vector path first, then the check column, then
the array. -/
def portReads (m : MCore) (t : Nat) : List URead :=
  let ready := m.reads.filter fun r => decide (r.due ≤ t)
  ready.filter (·.vec) ++ ([0x30, 0x3D, 0x28].flatMap fun o => ready.filter fun r => !r.vec && r.cmd.opc == o).take 4

def serveAt (s : State) (u t : Nat) : State :=
  let now := portReads (getM s u) t
  modM (now.foldl (fun s r => readOne s u r) s) u fun m =>
    { m with reads := m.reads.filter fun r => !now.contains r, portCyc := t + 1,
             dones := now.foldl (fun d r => tset 0 d r.cmd.opc (t + afterRead r.cmd.opc)) m.dones }

/-- The earliest A-cycle that a waiting read names. -/
def firstRead (m : MCore) : Option Nat :=
  match m.reads with
  | [] => none
  | r :: l => some (l.foldl (fun a x => min a x.due) r.due)

/-- Every read of an A-cycle up to `now` is made, cycle by cycle. -/
def serveReads (s : State) (u now : Nat) : Nat → State
  | 0 => s
  | n + 1 =>
    let m := getM s u
    match firstRead m with
    | none => s
    | some d => if now < max m.portCyc d then s else serveReads (serveAt s u (max m.portCyc d)) u now n

/-- The reads that are due by now are made: a write that lands later is not seen (R179, R232). -/
def catchUp (s : State) (u : Nat) : State := serveReads s u (unitNow s u) (getM s u).reads.length

end Sys2Proof.Machine
end

