-- ==== Sys2Proof/Machine/Residue.lean ====
section
/-! DEFINITION. Residue checks (R691, R693): the residue modulo 2^15 - 1 that the operands' residues give, the residue of the
result, an error that strikes the arithmetic between the two, and what the checker then finds. -/

namespace Sys2Proof.Machine

/-! ## Arithmetic of residues -/

/-- 2^15 - 1. -/
def resBase : Nat := 32767
/-- The residue of a number. -/
def res (n : Nat) : Nat := n % resBase
/-- The residue of an integer. -/
def resInt (z : Int) : Nat := (z % resBase).toNat
def resAdd (a b : Nat) : Nat := res (a + b)
def resNeg (a : Nat) : Nat := res (resBase - res a)
def resSub (a b : Nat) : Nat := resAdd a (resNeg b)
def resMul (a b : Nat) : Nat := res (a * b)
/-- A residue times 2^k: 2^15 leaves residue 1. -/
def resShl (a k : Nat) : Nat := resMul a (2 ^ (k % 15))

/-! ## Integer slots -/

/-- Whether the residue check guards an integer operation (R691): ADD, SUB, compares, MIN, MAX, MUL and MULHU. -/
def intGuarded (opc : Nat) : Bool := [0x01, 0x02, 0x09, 0x0A, 0x0B, 0x0D, 0x0E, 0x10, 0x11].contains opc

/-- The residue that the operands' residues give an integer result (R693). The adder's carry or borrow and the multiplier's other
half, which the result leaves out, are taken off by their own residues; a compare's result and the operand that MIN or MAX takes
follow from the sign of the difference. -/
def intResidue (opc : Nat) (a b : Word) : Nat :=
  let ra := res a.toNat
  let rb := res b.toNat
  match opc with
  | 0x01 => resSub (resAdd ra rb) (resShl ((a.toNat + b.toNat) / 2 ^ 64) 64)
  | 0x02 => resAdd (resSub ra rb) (resShl (ofBool (decide (a.toNat < b.toNat))) 64)
  | 0x09 => if a = b then 1 else 0
  | 0x0A => if a.slt b then 1 else 0
  | 0x0B => if a.ult b then 1 else 0
  | 0x0D => if a.slt b then ra else rb
  | 0x0E => if a.slt b then rb else ra
  | 0x10 => resSub (resMul ra rb) (resShl (res (a.toNat * b.toNat / 2 ^ 64)) 64)
  -- 2^11 undoes 2^64, since 2^75 leaves residue 1
  | _ => resShl (resSub (resMul ra rb) (res (a.toNat * b.toNat % 2 ^ 64))) 11

/-! ## Elements of the vector, reduction and conversion slots -/

/-- Whether the check guards an operation of the vector ALU: not the bitwise ones nor VSEL (R691). -/
def valuGuarded (opc : Nat) : Bool := !([0xC6, 0xC7, 0xC8, 0xCB].contains opc)

/-- The residue of an element before its rounding: of the significand, or of the bits that no rounding follows. -/
def PreElem.residue : PreElem → Nat
  | .round _ (.fin _ m _) _ => res m
  | .convert _ (.fin _ m _) => res m
  | .bits x _ => res x
  | _ => 0

/-- The residue of the significand of an exact sum, from the operands' significands, signs and alignment. -/
def sumResidue (a b : Fp) : Nat :=
  match a, b with
  | .fin n m e, .fin k p f =>
    let q := min e f
    let x := resShl (res m) (e - q).toNat
    let y := resShl (res p) (f - q).toNat
    let neg := decide (fpScaled n m e q + fpScaled k p f q < 0)
    resAdd (if n = neg then x else resNeg x) (if k = neg then y else resNeg y)
  | _, _ => 0
/-- The residue of the significand of an exact product. -/
def prodResidue (a b : Fp) : Nat :=
  match a, b with
  | .fin _ m _, .fin _ p _ => resMul (res m) (res p)
  | _, _ => 0

/-- The residue that the operands give a vector ALU element (R693): products and sums of significands and integers from their residues,
less the multiple of 2^w that an integer result of w bits leaves out; otherwise that of the operand or the flag that a compare
selects. -/
def valuResidue (opc : Nat) (t : EType) (a b c : Nat) : Nat :=
  let own := (valuPre opc t a b c).residue
  match t with
  | .flt f =>
    let x := fpDecode f a
    let y := fpDecode f b
    match (valuPre opc t a b c) with
    | .round _ (.fin _ _ _) _ =>
      if opc = 0xC0 then sumResidue x y
      else if opc = 0xC1 then sumResidue x (fpNeg y)
      else if opc = 0xC2 then prodResidue x y
      else if opc = 0xC3 then sumResidue (fpMul x y).1 (fpDecode f c)
      else own
    | _ => own
  | .int w =>
    let x := sx w a
    let y := sx w b
    let wrap := fun (z : Int) (r : Nat) => resSub r (resInt (z / 2 ^ w * 2 ^ w))
    if opc = 0xC0 then wrap (x + y) (resAdd (resInt x) (resInt y))
    else if opc = 0xC1 then wrap (x - y) (resSub (resInt x) (resInt y))
    else if opc = 0xC2 then wrap (x * y) (resMul (resInt x) (resInt y))
    else if opc = 0xC3 then wrap (x * y + sx w c) (resAdd (resMul (resInt x) (resInt y)) (resInt (sx w c)))
    else own

/-! ## An error strikes -/

/-- What the checker of a result finds: the element, the residue that the operands give and the residue of the result (R914). -/
structure ResFault where
  elem  : Nat
  want  : Nat
  found : Nat
  deriving DecidableEq, Repr

/-- An element with its bits flipped as an error flips them: in the significand where a rounding follows, otherwise in its w bits. -/
def PreElem.flip (w flips : Nat) : PreElem → PreElem
  | .round f (.fin n m e) g => .round f (.fin n (m ^^^ flips) e) g
  | .convert t (.fin n m e) => .convert t (.fin n (m ^^^ flips) e)
  | .bits x g => .bits ((x ^^^ flips) % 2 ^ w) g
  | p => p
/-- Whether a rounding follows. -/
def PreElem.rounds : PreElem → Bool
  | .bits _ _ => false
  | _ => true

/-- Element i of a result of elements of w bits under an error: its bits and its flags. -/
def struckOut (z : Option Upset) (w i : Nat) (p : PreElem) : Nat × NFlags :=
  match z with
  | some z =>
    if z.elem = i then
      let (x, g) := (p.flip w z.flips).out
      (if z.rounding && p.rounds then x ^^^ 1 else x, g)
    else p.out
  | none => p.out

/-- What the check of element i finds (R693): the residues differ, or the rounding predictor does. -/
def struckFault (z : Option Upset) (w i want : Nat) (p : PreElem) : Option ResFault :=
  match z with
  | some z =>
    let found := (p.flip w z.flips).residue
    if z.elem = i ∧ (want ≠ found ∨ (z.rounding && p.rounds)) then some { elem := i, want := want, found := found } else none
  | none => none

end Sys2Proof.Machine
end

