-- ==== Sys2Proof/Machine/Results.lean ====
section
/-! DEFINITION. Results on their way (R104 to R107): delivering them, and the results of the integer, row, vector ALU, vector
row move, reduction and conversion slots (R115 to R118, R142 to R154). -/

namespace Sys2Proof.Machine

/-! ## Delivering results -/

/-- A row lands in a scratchpad (R231), after every read that comes before it (R232). -/
def landRow (s : State) (u r data : Nat) (pois : Bool) : State := scratchWrite (catchUp s u) u r data pois

/-- The poison marks of 32 codewords as marks of 512 bytes. -/
def byteMarks (m : Nat) : Nat := (upFrom 0 32).foldl (fun a k => a + if bit m k then 0xFFFF * 2 ^ (16 * k) else 0) 0

/-- One result is written (R105, R106): to a register, to a window word, to every word of a window, to a vector register
under its byte mask, to a register pair, or to a row. -/
def applyPend (s : State) (u : Nat) (p : Pend) : State :=
  let v := p.val.toNat
  let q := p.pois.toNat
  match p.dest with
  | .gpr i =>
    if i = 0 then s else modCore s u fun c => { c with gpr := tset pval0 c.gpr i { v := BitVec.ofNat 64 v, p := q != 0 } }
  | .win k => modCore s u fun c => { c with win := tset pval0 c.win k { v := BitVec.ofNat 64 v, p := q != 0 } }
  | .window w => modCore s u fun c => { c with win := (upFrom 0 64).foldl (fun t i =>
      tset pval0 t (w * 64 + i) { v := BitVec.ofNat 64 (v >>> (64 * i)), p := bits q (8 * i + 7) (8 * i) != 0 }) c.win }
  | .vec i => modCore s u fun c =>
      let o := rv c i
      let m := (p.mask.toNat) % 2 ^ 256
      let mb := BitVec.ofNat 2048 ((upFrom 0 256).foldl (fun a k => a + if bit m k then 0xFF * 2 ^ (8 * k) else 0) 0)
      let mq := BitVec.ofNat 256 m
      let x : VReg := { v := (o.v &&& ~~~mb) ||| (BitVec.ofNat 2048 v &&& mb), p := (o.p &&& ~~~mq) ||| BitVec.ofNat 256 q }
      { c with vec := tset vreg0 c.vec i x }
  | .pair k => modCore s u fun c =>
      let lo : VReg := { v := BitVec.ofNat 2048 v, p := BitVec.ofNat 256 q }
      let hi : VReg := { v := BitVec.ofNat 2048 (v >>> 2048), p := BitVec.ofNat 256 (q >>> 256) }
      { c with vec := tset vreg0 (tset vreg0 c.vec (2 * k) lo) (2 * k + 1) hi }
  | .row r => landRow s u r v (q != 0)

/-- Whether a result is due before another: by cycle, then by slot, so that the higher slot is written last (R106); of two results of one
slot the one issued later is written last (assumption 75, DESIGN CHOICE). -/
def pendBefore (a b : Pend) : Bool := a.due < b.due || (a.due == b.due && a.slot ≤ b.slot)

def insertPend (p : Pend) : List Pend → List Pend
  | [] => [p]
  | q :: t => if pendBefore q p then q :: insertPend p t else p :: q :: t

/-- Every result that is due by the core's cycle is written, in order (R105). -/
def settleCore (s : State) (u : Nat) : State :=
  let c := getCore s u
  let due := c.pend.takeWhile (fun p => decide (p.due ≤ c.cycle))
  if due.isEmpty then s
  else due.foldl (fun s p => applyPend s u p)
    (setCore s u { c with pend := c.pend.dropWhile (fun p => decide (p.due ≤ c.cycle)) })

/-- A result that a bundle issued at cycle `cyc` gives after `lat` cycles; in the poison state every byte is poisoned
(R168). -/
def addResult (s : State) (u slot cyc lat : Nat) (d : Dest) (v q m : Nat) : State :=
  modCore s u fun c =>
    let q := if !c.pstate then q else if m = 0 then 2 ^ 512 - 1 else q ||| m
    { c with pend := insertPend { due := cyc + lat, slot := slot, dest := d, val := BitVec.ofNat 4096 v,
                                  pois := BitVec.ofNat 512 q, mask := BitVec.ofNat 512 m } c.pend }

/-- An inbound write lands (R231, R243): after the core's own writes that are due; in strict rows mode a guarded row's
arrived bit is set (R259). -/
def inboundRow (s : State) (u r data : Nat) (pois : Bool) : State :=
  let s := landRow (settleCore s u) u r data pois
  let c := getCore s u
  if c.strict && c.guards.any (guardHas · r) then setCore s u { c with arrived := setAdd c.arrived r } else s

/-! ## Integer slots (R115, R116) -/

/-- HASH's mixing function (R116). -/
def mix (x : Word) : Word :=
  let x := x ^^^ (x >>> 29)
  let x := x * 0x9E3779B97F4A7C15
  x ^^^ (x >>> 32)

/-- The result of an integer operation, from source A, source B, the destination's value at issue, the slot's immediate and
the counter that RDC reads (R115). -/
def intResult (opc : Nat) (a b d : Word) (imm : BitVec 24) (cnt : BitVec 32) : Word :=
  match opc with
  | 0x01 => a + b
  | 0x02 => a - b
  | 0x03 => a &&& b
  | 0x04 => a ||| b
  | 0x05 => a ^^^ b
  | 0x06 => a <<< (b.toNat % 64)
  | 0x07 => a >>> (b.toNat % 64)
  | 0x08 => a.sshiftRight (b.toNat % 64)
  | 0x09 => if a = b then 1 else 0
  | 0x0A => if a.slt b then 1 else 0
  | 0x0B => if a.ult b then 1 else 0
  | 0x0C => if d ≠ 0 then a else b
  | 0x0D => if a.slt b then a else b
  | 0x0E => if a.slt b then b else a
  | 0x10 => a * b
  | 0x11 => BitVec.ofNat 64 (a.toNat * b.toNat / 2 ^ 64)
  | 0x12 => mix (a ^^^ b)
  | 0x13 => imm.signExtend 64
  | 0x14 => (a <<< 24) ||| imm.setWidth 64
  | _ => cnt.setWidth 64

/-- R115. -/
def intLatency (opc : Nat) : Nat :=
  if opc = 0x10 ∨ opc = 0x11 then 3 else if opc = 0x12 then 2 else 1

/-- Which operands a result depends on, for poison (R167): A, B, the destination. -/
def intPoison (opc : Nat) (a b d : Bool) : Bool :=
  if opc = 0x13 ∨ opc = 0x15 then false else if opc = 0x14 then a else if opc = 0x0C then a || b || d else a || b

/-- Whether the residue check of a core is enabled (R695): the S-core's on integer slots, the V-core's on the arithmetic of its vector,
reduction and conversion slots (R691). -/
def residueOn (s : State) (p : Profile) : Bool :=
  match p with | .s => bit s.chk.enables.toNat 3 | .v => bit s.chk.enables.toNat 2 | .m => false

/-- RESIDUE, if a check has found one (R165, R914): it is raised with both residues, and the result is kept for arbitration (R698). -/
def raiseResidue (s : State) (u : Nat) (c : Core) (op : SlotOp) (f : Option ResFault) (result : Nat) : State :=
  match f with
  | none => s
  | some f =>
    let s := detectorFault s u 0x22 op.slot c.pc c.cycle (fields [(f.elem % 256, 40), (f.want, 15), (f.found, 0)])
    captureArb s u 0x22 c.cycle [BitVec.ofNat 4096 result] [(f.want : Int), (f.found : Int)]

/-- What the check of an integer slot finds in a result (R693). -/
def intCheck (s : State) (c : Core) (opc : Nat) (a b r : Word) : Option ResFault :=
  let want := intResidue opc a b
  if residueOn s c.profile && c.profile == .s && intGuarded opc && want != res r.toNat then
    some { elem := 0, want := want, found := res r.toNat }
  else none

/-- The bits of an integer result that an error flips. -/
def intFlips (z : Option Upset) : Word :=
  match z with
  | some z => if z.elem = 0 then BitVec.ofNat 64 z.flips else 0
  | none => 0

/-- An integer slot (R114, R115); its result is checked where the check guards it (R691, R693). -/
def intEffect (s : State) (u : Nat) (c : Core) (op : SlotOp) : State :=
  let w := op.w
  let sd := bits w 55 46
  let a := if op.opc = 0x15 then pval0 else readSpec s u c (bits w 45 36) 0
  let b := readSpec s u c (bits w 35 26) (bits w 23 0)
  let d := readSpec s u c sd 0
  let v := intResult op.opc a.v b.v d.v (BitVec.ofNat 24 w) (rcnt c (bits w 41 36)) ^^^ intFlips op.upset
  let f := intCheck s c op.opc a.v b.v v
  let dest := if bits sd 9 8 = 1 then Dest.win (bits sd 7 6 * 64 + bits sd 5 0) else Dest.gpr (bits sd 5 0)
  addResult (raiseResidue s u c op f v.toNat) u op.slot c.cycle (intLatency op.opc) dest v.toNat
    (ofBool (intPoison op.opc a.p b.p d.p || f.isSome)) 0

/-! ## The row slot (R117) -/

/-- A window's 64 words as a row, and the marks of its bytes. -/
def windowRow (c : Core) (w : Nat) : Nat × Nat :=
  (upFrom 0 64).foldl (fun acc i =>
    let x := tget pval0 c.win (w * 64 + i)
    (acc.1 + x.v.toNat * 2 ^ (64 * i), acc.2 + if x.p then 0xFF * 2 ^ (8 * i) else 0)) (0, 0)

def rowLatency (p : Profile) : Nat := match p with | .v => 7 | _ => 6

/-- The marks that a poisoned address register puts on every byte of the row moved (R167). -/
def addrPoison (c : Core) (reg : Nat) : Nat := if (rg c reg).p then 2 ^ 512 - 1 else 0

/-- LDROW, STROW and CLRW. -/
def rowEffect (s : State) (u : Nat) (c : Core) (op : SlotOp) : State :=
  let w := bits op.w 55 54
  let r := rowAddr c (bits op.w 53 48) (bits op.w 47 32)
  let ap := addrPoison c (bits op.w 53 48)
  if op.opc = 0x40 then
    let (s, rd) := coreRead s u r op.slot c.pc c.cycle
    addResult s u op.slot c.cycle (rowLatency c.profile) (.window w) rd.data (byteMarks rd.pois ||| ap) 0
  else if op.opc = 0x41 then
    let (v, q) := windowRow c w
    addResult s u op.slot c.cycle 3 (.row r) v (q ||| ap) 0
  else addResult s u op.slot c.cycle 1 (.window w) 0 0 0

/-! ## Vector slots (R142 to R154) -/

/-- The poison of n elements of w bits, element i poisoned when `f i` is not 0. -/
def elemPoison (w : Nat) (f : Nat → Nat) (n : Nat) : Nat :=
  (buildElems (w / 8) (fun i => (if f i = 0 then 0 else 2 ^ (w / 8) - 1, 0)) n).1

/-- The mark of the element of w bits in which a check has found an error (R165). -/
def faultMark (w : Nat) (f : Option ResFault) : Nat :=
  match f with
  | some f => (2 ^ (w / 8) - 1) <<< (w / 8 * f.elem)
  | none => 0

/-- The check of the n elements of w bits of a result (R693): an error strikes at most one. -/
def elemsCheck (s : State) (c : Core) (z : Option Upset) (w : Nat) (want : Nat → Nat) (p : Nat → PreElem) (n : Nat) : Option ResFault :=
  match z with
  | some u => if residueOn s c.profile && decide (u.elem < n) then struckFault z w u.elem (want u.elem) (p u.elem) else none
  | none => none

/-- A vector ALU slot (R144, R145): an element whose element of the mask is zero keeps its value, and takes the mask's poison. -/
def valuEffect (s : State) (u : Nat) (c : Core) (op : SlotOp) : State :=
  match etype (bits op.w 35 33) with
  | none => s
  | some t =>
    let w := ewidth t
    let n := ecount t
    let ra := rv c (bits op.w 50 46)
    let rb := rv c (bits op.w 45 41)
    let rc := rv c (bits op.w 40 36)
    let rm := rv c (bits op.w 32 28)
    let useC := op.opc == 0xC3 || op.opc == 0xCB
    let masked := bit op.w 27
    let keep := fun i => masked && ezero t (elemAt rm.v.toNat w i)
    let pre := fun i => valuPre op.opc t (elemAt ra.v.toNat w i) (elemAt rb.v.toNat w i) (elemAt rc.v.toNat w i)
    let (v, fl) := buildElems w (fun i => if keep i then (0, 0) else struckOut op.upset w i (pre i)) n
    let f := if valuGuarded op.opc then
        elemsCheck s c (op.upset.filter fun z => !keep z.elem) w
          (fun i => valuResidue op.opc t (elemAt ra.v.toNat w i) (elemAt rb.v.toNat w i) (elemAt rc.v.toNat w i)) pre n
      else none
    let ps := ra.p.toNat ||| rb.p.toNat ||| (if useC then rc.p.toNat else 0) ||| (if masked then rm.p.toNat else 0)
    let q := elemPoison w (fun i => elemAt (if keep i then rm.p.toNat else ps) (w / 8) i) n ||| faultMark w f
    let mk := elemPoison w (fun i => ofBool !(keep i)) n
    let s := modCore s u fun c => { c with flags := c.flags ||| fl }
    addResult (raiseResidue s u c op f v) u op.slot c.cycle (valuLatency op.opc t) (.vec (bits op.w 55 51)) v q mk

/-- VLD, VST, VBC and VEXT (R150). -/
def vmoveEffect (s : State) (u : Nat) (c : Core) (op : SlotOp) : State :=
  let p := bits op.w 55 52
  let r := rowAddr c (bits op.w 51 46) (bits op.w 45 30)
  let ap := addrPoison c (bits op.w 51 46)
  if op.opc = 0xD0 then
    let (s, rd) := coreRead s u r op.slot c.pc c.cycle
    addResult s u op.slot c.cycle 7 (.pair p) rd.data (byteMarks rd.pois ||| ap) 0
  else if op.opc = 0xD1 then
    let a := rv c (2 * p)
    let b := rv c (2 * p + 1)
    addResult s u op.slot c.cycle 3 (.row r) (a.v.toNat + b.v.toNat * 2 ^ 2048) ((a.p.toNat + b.p.toNat * 2 ^ 256) ||| ap) 0
  else if op.opc = 0xD2 then
    match etype (bits op.w 44 42) with
    | none => s
    | some t =>
      let g := rg c (bits op.w 50 45)
      addResult s u op.slot c.cycle 2 (.vec (bits op.w 55 51)) (buildElems (ewidth t) (fun _ => (g.v.toNat, 0)) (ecount t)).1
        (if g.p then 2 ^ 256 - 1 else 0) (2 ^ 256 - 1)
  else
    match etype (bits op.w 36 34) with
    | none => s
    | some t =>
      let a := rv c (bits op.w 49 45)
      let i := bits op.w 44 37
      addResult s u op.slot c.cycle 2 (.gpr (bits op.w 55 50)) (elemAt a.v.toNat (ewidth t) i)
        (elemAt a.p.toNat (ewidth t / 8) i) 0

/-- VRSUM, VRMAX and VRMIN (R151, R152). The result stands alone in a vector register, an integer sum as one element of 64 bits, and
extended with zeros in a general register (assumption 73). -/
def reduceEffect (s : State) (u : Nat) (c : Core) (op : SlotOp) : State :=
  match etype (bits op.w 43 41) with
  | none => s
  | some t =>
    let a := rv c (bits op.w 48 44)
    let (p, w, g) := reducePre op.opc t a.v.toNat
    let (v, fl) := struckOut op.upset w 0 p
    let f := elemsCheck s c op.upset w (fun _ => p.residue) (fun _ => p) 1
    let lat := (match t with | .flt _ => if op.opc = 0xE0 then 6 else 4 | .int _ => 4) + ofBool (bit op.w 55)
    let s := raiseResidue (modCore s u fun c => { c with flags := c.flags ||| (g ||| fl) }) u c op f v
    let bad := a.p != 0 || f.isSome
    if bit op.w 55 then addResult s u op.slot c.cycle lat (.gpr (bits op.w 54 49)) v (ofBool bad) 0
    else addResult s u op.slot c.cycle lat (.vec (bits op.w 54 49)) v (if bad then 2 ^ (w / 8) - 1 else 0) (2 ^ 256 - 1)

/-- The poison of a VCVT result, element by element from the element that it converts. -/
def vcvtPoison (wf wt : Nat) (half : Bool) (a b : Nat) : Nat :=
  let bf := wf / 8
  if wf = wt then elemPoison wt (fun i => elemAt a bf i) (2048 / wt)
  else if wf = 2 * wt then
    let n := 2048 / wf
    elemPoison wt (fun i => if i < n then elemAt a bf i else elemAt b bf (i - n)) (2048 / wt)
  else if wt = 2 * wf then
    let n := 2048 / wt
    elemPoison wt (fun i => elemAt a bf (if half then i + n else i)) n
  else if a = 0 ∧ b = 0 then 0 else 2 ^ 256 - 1

/-- VCVT and the functions (R153, R154). -/
def convertEffect (s : State) (u : Nat) (c : Core) (op : SlotOp) : State :=
  let a := rv c (bits op.w 50 46)
  let b := rv c (bits op.w 45 41)
  let d := Dest.vec (bits op.w 55 51)
  if op.opc = 0xF0 then
    match etype (bits op.w 40 38), etype (bits op.w 37 35) with
    | some tf, some tt =>
      let g := rg c (bits op.w 33 28)
      let scaled := bit op.w 27
      let k : Int := if scaled then sx 8 (g.v.toNat % 256) else 0
      let q := if scaled && g.p then 2 ^ 256 - 1
        else vcvtPoison (ewidth tf) (ewidth tt) (bit op.w 34) a.p.toNat b.p.toNat
      let wt := ewidth tt
      let n := if wt = 2 * ewidth tf then 2048 / wt else ecount tt
      if (vcvtSource (ewidth tf) wt (bit op.w 34) 0 0 0).isNone then
        addResult (bumpFree s) u op.slot c.cycle 3 d (Config.vcvtOpen s.free).toNat q (2 ^ 256 - 1)
      else
        let pre := fun i => (vcvtPre tf tt (bit op.w 34) k a.v.toNat b.v.toNat i).getD (.bits 0 0)
        let (v, fl) := buildElems wt (fun i => struckOut op.upset wt i (pre i)) n
        let f := elemsCheck s c op.upset wt (fun i => (pre i).residue) pre n
        let s := modCore s u fun c => { c with flags := c.flags ||| fl }
        addResult (raiseResidue s u c op f v) u op.slot c.cycle 3 d v (q ||| faultMark wt f) (2 ^ 256 - 1)
    | _, _ => s
  else
    let pre := fun i => let r := vfunElem op.opc (elemAt a.v.toNat 32 i); PreElem.bits r.1 r.2
    let (v, fl) := buildElems 32 (fun i => struckOut op.upset 32 i (pre i)) 64
    let f := elemsCheck s c op.upset 32 (fun i => (pre i).residue) pre 64
    let s := modCore s u fun c => { c with flags := c.flags ||| fl }
    addResult (raiseResidue s u c op f v) u op.slot c.cycle (if op.opc ≤ 0xF2 then 8 else 6) d v
      (elemPoison 32 (fun i => elemAt a.p.toNat 4 i) 64 ||| faultMark 32 f) (2 ^ 256 - 1)

end Sys2Proof.Machine
end

