-- ==== Sys2Proof/Machine/Gathers.lean ====
section
/-! DEFINITION. The request of a gather (R470 to R474): its control word, its items, its reply's size and its checks. -/

namespace Sys2Proof.Machine

/-- Bytes of an entry of d elements (R470); none for a reserved format. -/
def entryBytes (fmt d : Nat) : Option Nat :=
  match fmt with
  | 0 => some (4 + d)
  | 1 => some (4 + ceilDiv d 2)
  | 2 => some d
  | 3 => some d
  | 4 => some (2 * d)
  | 5 => some (2 * d)
  | _ => none

/-- A gather's control word and its parts (R472). -/
structure GatherReq where
  dst    : Nat
  table  : Nat
  pool   : Nat
  outFmt : Nat
  bags   : Nat
  count  : Nat
  clean  : Bool
  lens   : List Nat
  items  : List (Nat × Nat)

/-- Reading a request from its rows: bag lengths follow the control word, items the header row. -/
def gatherReq (rows : List PRow) : GatherReq :=
  let h := match rows with | r :: _ => r.data.toNat | [] => 0
  let body := (rows.drop 1).foldr (fun r acc => r.data.toNat + acc * 2 ^ 4096) 0
  let pool := bits h 107 105
  let bags := bits h 102 95 + 1
  let n := bits h 94 81
  { dst := bits h 127 114, table := bits h 113 108, pool := pool, outFmt := bits h 104 103, bags := bags, count := n,
    clean := bits h 80 0 == 0, lens := (upFrom 0 bags).map fun b => bits h (128 + 16 * b + 15) (128 + 16 * b),
    items := (upFrom 0 n).map fun i =>
      if pool = 3 then (bits body (64 * i + 31) (64 * i), bits body (64 * i + 63) (64 * i + 32))
      else (bits body (32 * i + 31) (32 * i), 0) }

/-- Bytes of an output vector (R473), before padding. -/
def vecSize (g : GatherReq) (w0 : Nat) : Nat :=
  let d := bits w0 57 48 + 1
  match g.outFmt with
  | 0 => 4 * d
  | 1 => 2 * d
  | 2 => 2 * d
  | _ => 2 ^ bits w0 59 58 * 64
/-- Rows of the reply (R473). -/
def replyRows (g : GatherReq) (w0 : Nat) : Nat :=
  ceilDiv ((if g.pool = 0 then g.count else g.bags) * (ceilDiv (vecSize g w0) 64 * 64)) 512

/-- The first check of R474 that a request fails, against the descriptor's words. -/
def gatherCheck (g : GatherReq) (d : TblDesc) (rows : Nat) : Option Nat :=
  let w0 := d.w0.toNat
  if !bit w0 63 then some 0x72
  else if !([0, 1, 2, 3, 4].contains g.pool) ∨ (g.outFmt = 3 ∧ g.pool ≠ 0) ∨ !g.clean ∨ 248 < g.bags ∨ (g.pool = 0 ∧ g.bags ≠ 1)
      ∨ g.lens.foldl (· + ·) 0 ≠ g.count ∨ g.count = 0
      ∨ rows < 1 + ceilDiv (g.count * (if g.pool = 3 then 8 else 4)) 512 ∨ 64 < replyRows g w0 then some 0x74
  else if g.items.any fun i => decide (bits d.w1.toNat 26 0 ≤ i.1) then some 0x73
  else none

end Sys2Proof.Machine
end

