-- ==== Sys2Proof/Machine/Mesh.lean ====
section
/-! DEFINITION. What the control slot does beyond branches: SEND, MSG, DMA and SPUSH (R130 to R136, R405 to R412, R920), the
waits and what passing one releases (R123 to R126, R260, R293), SIGCHK (R129). -/

namespace Sys2Proof.Machine

/-! ## SEND, MSG, DMA, SPUSH -/

/-- A request of a bundle's control slot for the outbound engine. -/
def mkReq (c : Core) (slot : Nat) (kind : OpKind) (ptype dst base count : Nat) (op : Nat) : OutReq :=
  { kind := kind, ptype := ptype, dst := BitVec.ofNat 14 dst, base := base, count := count, done := 0,
    op := BitVec.ofNat 128 op, id := 0, rows := none, port := none, waited := false, pc := c.pc, bslot := slot,
    cyc := c.cycle }

/-- The completion slot that an instruction names when its report bit is 1 (R133). -/
def reportSlot (w : Nat) : Option Nat := if bit w 49 then some (bits w 48 45) else none

/-- At issue: the completion slot is taken over and pending (R133, R134). -/
def startReport (s : State) (u w : Nat) : State :=
  match reportSlot w with
  | some n => setSlot (takeSlot s u n) u n (slotWord 1 0 0 0)
  | none => s

/-- An operation that fails at issue or is not made (R103, R382, R920). -/
def failAtIssue (s : State) (u w ptype code : Nat) : State :=
  let s := match reportSlot w with
    | some n => setSlot (takeSlot s u n) u n (slotWord 3 code 0 (timeAt s u))
    | none => s
  postEntry (countEp s u 6 1) { kind := 0x04, code := code, stamp := BitVec.ofNat 64 (timeAt s u), unit := some u, cls := 14,
                                opc := ptype, plc := plcOf s u }

/-- The rows of a SEND are expected where they go (R65, R243): on the counter of the hall pass that it names, or on its own. -/
def expectSend (s : State) (u cyc dst hp ctr n : Nat) : State :=
  match siteOfId s dst with
  | none => s
  | some v =>
    if hp = 0 then expectRows s u v ctr cyc n
    else match (getCore s v).passes.find? fun h => h.number.toNat == hp with
      | some h => expectRows s u v h.counter.toNat cyc n
      | none => s

/-- The rows of a gather are expected at the core that its request names (R65, R461): the request's rows say how many. -/
def expectGather (s : State) (u cyc dst ctr base n : Nat) : State :=
  let rows := (upFrom base n).map fun r => ({ data := BitVec.ofNat 4096 (scratchRead s u r).data, poison := 0 } : PRow)
  let g := gatherReq rows
  match siteOfId s g.dst, tileOfId dst with
  | some v, some t => expectRows s u v ctr cyc (replyRows g (tget tblDesc0 (getTile s t).tables g.table).w0.toNat)
  | _, _ => s

/-- SEND (R130, R230, R461). -/
def sendEffect (s : State) (u : Nat) (c : Core) (op : SlotOp) : State :=
  if descPoisoned c op.opc op.w then failAtIssue s u op.w 1 0x53
  else
    let e := (rg c (bits op.w 55 50)).v.toNat
    let d := (rg c (bits op.w 55 50 + 1)).v.toNat
    let dst := bits e 63 50
    let n := bits e 33 28 + 1
    let word := fields [(bits d 63 48, 112), (bits e 27 22, 106), (bits d 47 32, 90), (n - 1, 72), (bits d 31 27, 67)]
    let s := startReport s u op.w
    if (tileOfId dst).isSome then
      enqueue (expectGather s u c.cycle dst (bits e 27 22) (bits e 49 34) n) u
        (mkReq c op.slot .gather 6 dst (bits e 49 34) n word) (reportSlot op.w)
    else enqueue (expectSend s u c.cycle dst (bits d 47 32) (bits e 27 22) n) u
      (mkReq c op.slot .write 1 dst (bits e 49 34) n word) (reportSlot op.w)

/-- MSG send (R407 to R409). -/
def msgSendEffect (s : State) (u : Nat) (c : Core) (op : SlotOp) : State :=
  let d := (rg c (bits op.w 55 50)).v.toNat
  let ch := bits d 60 56
  let n := bits d 39 34 + 1
  let x := getChan (getCore s u) ch
  let drop := fun s => modCore s u fun c => let x := getChan c ch; setChan c ch { x with cDropped := sat32 x.cDropped 1 }
  if chRows x < n then failAtIssue (drop s) u op.w 2 0x61
  else if x.sendState ≠ .ready then failAtIssue (drop s) u op.w 2 0x67
  else
    let word := fields [(chPeerCh x, 123), (ch, 118), (x.gen.toNat, 110), (x.nextSeq.toNat, 94), (n - 1, 88)]
    let s := modCore s u fun c => let x := getChan c ch; setChan c ch { x with nextSeq := x.nextSeq + 1 }
    enqueue (startReport s u op.w) u (mkReq c op.slot (.message ch x.nextSeq) 2 (chPeer x) (bits d 55 40) n word)
      (reportSlot op.w)

/-- The local operations of a channel: release, close and resume (R411, R412, R425, R430). -/
def msgLocalEffect (s : State) (u : Nat) (c : Core) (op : SlotOp) : State :=
  let d := (rg c (bits op.w 55 50)).v.toNat
  let ch := bits d 60 56
  let s := modCore s u fun c =>
    let x := getChan c ch
    match bits d 63 61 with
    | 1 => setChan c ch { x with ro := (x.ro + bits d 39 27) % chRows x, used := x.used - bits d 39 27 }
    | 2 => setChan c ch { x with recvState := .closed }
    | _ => setChan c ch { x with sendState := if x.inFlight = 0 then .ready else .resuming }
  match reportSlot op.w with
  | some n => setSlot (takeSlot s u n) u n (slotWord 2 0 0 (timeAt s u))
  | none => s

/-- MSG (R405, R920). -/
def msgEffect (s : State) (u : Nat) (c : Core) (op : SlotOp) : State :=
  if descPoisoned c op.opc op.w then failAtIssue s u op.w 2 0x53
  else if bits (rg c (bits op.w 55 50)).v.toNat 63 61 = 0 then msgSendEffect s u c op
  else msgLocalEffect s u c op

/-- DMA (R131, R459, R460). -/
def dmaEffect (s : State) (u : Nat) (c : Core) (op : SlotOp) : State :=
  let e := (rg c (bits op.w 55 50)).v.toNat
  let d := (rg c (bits op.w 55 50 + 1)).v.toNat
  if descPoisoned c op.opc op.w then failAtIssue s u op.w (if bit e 48 then 4 else 3) 0x53
  else
    let n := bits e 31 20 + 1
    let base := bits e 47 32
    let s := startReport s u op.w
    if bit e 48 then
      enqueue s u (mkReq c op.slot .dmaWrite 4 (bits e 63 50) base n (fields [(bits d 35 9, 101), (n - 1, 89)])) (reportSlot op.w)
    else
      let s := expectRows s u u (bits e 19 14) c.cycle n
      let s := modCore s u fun x => { x with dmaIn := x.dmaIn ++
        [{ op := (getEp s u).nextOp, src := BitVec.ofNat 14 (bits e 63 50), base := base, n := n, counter := bits e 19 14, left := n,
           due := x.dues.getLast?.bind (·.at_) }] }
      enqueue s u (mkReq c op.slot (.dmaRead base) 3 (bits e 63 50) base n
        (fields [(bits d 35 9, 101), (n - 1, 89), (base, 73), (bits e 19 14, 67)])) (reportSlot op.w)

/-- SPUSH (R135, R291, R920): one credit per row at issue; with a poisoned address register the port still receives its
rows, unread and poisoned. -/
def spushEffect (s : State) (u : Nat) (c : Core) (op : SlotOp) : State :=
  let p := bits op.w 55 53
  let n := bits op.w 30 26 + 1
  match tfind c.outPorts p with
  | none => s
  | some (q, id) =>
    let s := modSeg s q.val id fun g => { g with credits := g.credits - n }
    let r := mkReq c op.slot .write 0 0 (rowAddr c (bits op.w 52 47) (bits op.w 46 31)) n 0
    let r := { r with port := some p,
                      rows := if (rg c (bits op.w 52 47)).p then some (List.replicate n { data := 0, poison := BitVec.allOnes 32 })
                              else none }
    enqueue s u r none

/-! ## Waits -/

/-- The target of a WAITC (R123). -/
def waitcTarget (c : Core) (w : Nat) : BitVec 32 :=
  if bit w 49 then (rg c (bits w 48 43)).v.setWidth 32 else BitVec.ofNat 32 (bits w 42 11)

/-- Whether a wait's condition holds (R123, R124); an operation that is no wait holds nothing up. -/
def waitHolds (s : State) (u : Nat) (c : Core) (op : SlotOp) : Bool :=
  if op.opc = 0x88 then !((rcnt c (bits op.w 55 50)) - waitcTarget c op.w).msb
  else if op.opc = 0x89 then
    let x := statusWord s u c (bits op.w 55 50) &&& (rg c (bits op.w 47 42)).v
    let v := (rg c (bits op.w 41 36)).v
    match bits op.w 49 48 with
    | 0 => x == v
    | 1 => x != v
    | _ => v.ule x
  else true

/-- The strict-rows snapshot of a WAITC that issues (R260): the readable bits of its counter's range take the arrived
bits, which become 0. -/
def strictSnapshot (c : Core) (ctr : Nat) : Core :=
  if !c.strict then c
  else
    let mine := fun (r : Nat) => c.guards.any fun g => g.counter.toNat == ctr && guardHas g r
    { c with readable := (c.readable.filter fun r => !mine r) ++ c.arrived.filter mine,
             arrived := c.arrived.filter fun r => !mine r }

/-- The rows that a WAITC releases in one input ring (R293): those counted up to the target of the WAITC before it. -/
def ringRelease (r : InRing) (target : BitVec 32) : InRing × Nat :=
  let r' := { r with prevTarget := some target }
  match r.prevTarget with
  | none => (r', 0)
  | some t =>
    let kept := r.counts.dropWhile fun k => !(t - k).msb
    ({ r' with counts := kept }, r.counts.length - kept.length)

/-- A WAITC issues: snapshot, and ring rows released as credits owed to the segment's source (R260, R293, R296). -/
def waitcEffect (s : State) (u : Nat) (c : Core) (op : SlotOp) : State :=
  let ctr := bits op.w 55 50
  let t := waitcTarget c op.w
  let s := modCore s u fun c => strictSnapshot c ctr
  c.inRings.foldl (fun s e =>
    if e.2.counter = ctr then
      let (r, n) := ringRelease e.2 t
      let s := modCore s u fun c => { c with inRings := tput c.inRings e.1 r }
      if n = 0 then s else modSeg s e.2.plc.val e.2.seg fun g => { g with owed := g.owed + n }
    else s) s

/-- SIGCHK (R129): the signature up to the bundle before is compared, if signature compare is enabled (R695), and reset. -/
def sigchkEffect (s : State) (u : Nat) (c : Core) (op : SlotOp) : State :=
  let e := bits op.w 31 0
  let s := if c.sig.toNat ≠ e ∧ bit s.chk.enables.toNat 4 then
      detectorFault s u 0x23 op.slot c.pc c.cycle (c.sig.toNat * 2 ^ 32 + e) else s
  modCore s u fun c => { c with sig := 0 }

/-- A halting core closes its receive channels (R430). -/
def closeChannels (c : Core) : Core :=
  { c with chans := tmap chan0 (fun _ x => if chRole x = 2 then { x with recvState := .closed } else x) c.chans }

/-! ## Branches (R119 to R122, R168) -/

/-- What a control operation does to the sequence: the target if it transfers control, whether the next bundle is delayed,
and whether the core enters the poison state. -/
structure Flow1 where
  target : Option Nat
  late   : Bool
  pois   : Bool

def branchOf (c : Core) (op : SlotOp) : Flow1 :=
  let hint := bit op.w 55
  let tgt := bits op.w 48 37
  let g := rg c (bits op.w 54 49)
  let cond := fun (b : Bool) =>
    if g.p then { target := if hint then some tgt else none, late := false, pois := true : Flow1 }
    else { target := if b then some tgt else none, late := b != hint, pois := false }
  match op.opc with
  | 0x80 => { target := some tgt, late := !hint, pois := false }
  | 0x81 => cond (g.v == 0)
  | 0x82 => cond (g.v != 0)
  | 0x83 => cond g.v.msb
  | 0x84 => cond (!g.v.msb)
  | 0x85 => { target := some tgt, late := !hint, pois := false }
  | 0x86 => { target := some g.v.toNat, late := true, pois := false }
  | _ => { target := none, late := false, pois := false }

end Sys2Proof.Machine
end

