-- ==== Sys2Proof/Machine/Tally.lean ====
section
/-! DEFINITION. Element formats of the matrix units (R174, R175), tallies (R195 to R204, R916), rounding at the drain
(R207, R208) and the comparison of R218. -/

namespace Sys2Proof.Machine

/-! ## Elements (R174, R175) -/

def elemBits (f : Nat) : Nat := if rateClass f = 4 then 4 else if fmtIsSix f then 6 else if rateClass f = 16 then 16 else 8

/-- The exponent of an element's lowest bit weight (R174). -/
def lowBit (f : Nat) : Int :=
  match f with
  | 0 => -9 | 1 => -16 | 4 => -9 | 5 => -16 | 6 => -4 | 7 => -3 | 8 => -1 | 9 => -6 | 10 => -2 | 11 => -133
  | _ => 0

/-- A value of a format without specials, in units of its lowest bit weight. -/
def plainFp (eb mb x : Nat) : Int :=
  let m := x % 2 ^ mb
  let e := (x >>> mb) % 2 ^ eb
  let v : Int := if e = 0 then m else ((2 ^ mb + m) <<< (e - 1) : Nat)
  if bit x (eb + mb) then -v else v

/-- An element's special state and its value in units of its lowest bit weight (R174, R204). -/
def elemVal (f x : Nat) : Special × Int :=
  let sgn := fun n => if bit x n then Special.ninf else Special.pinf
  match f with
  | 0 => if x % 128 = 127 then (.nan, 0) else (.fin, plainFp 4 3 x)
  | 4 => if x % 128 = 127 then (.nan, 0) else (.fin, plainFp 4 3 x)
  | 1 => if x % 128 = 124 then (sgn 7, 0) else if 124 < x % 128 then (.nan, 0) else (.fin, plainFp 5 2 x)
  | 5 => if x % 128 = 124 then (sgn 7, 0) else if 124 < x % 128 then (.nan, 0) else (.fin, plainFp 5 2 x)
  | 2 => (.fin, sx 8 x)
  | 9 => (.fin, sx 8 x)
  | 3 => (.fin, sx 4 x)
  | 10 => (.fin, sx 4 x)
  | 6 => (.fin, plainFp 3 2 x)
  | 7 => (.fin, plainFp 2 3 x)
  | 8 => (.fin, plainFp 2 1 x)
  | _ => if bits x 14 7 = 255 then (if x % 128 = 0 then (sgn 15, 0) else (.nan, 0)) else (.fin, plainFp 8 7 x)

/-- combine_special (R200). -/
def combineSp (a b : Special) : Special :=
  match a, b with
  | .fin, y => y
  | x, .fin => x
  | .pinf, .pinf => .pinf
  | .ninf, .ninf => .ninf
  | _, _ => .nan

/-- A product (R204). -/
def mulVal (a b : Special × Int) : Special × Int :=
  let neg := fun (s : Special) (z : Int) => (s == .ninf) != decide (z < 0)
  match a, b with
  | (.fin, x), (.fin, y) => (.fin, x * y)
  | (.nan, _), _ => (.nan, 0)
  | _, (.nan, _) => (.nan, 0)
  | (s, _), (.fin, y) => if y = 0 then (.nan, 0) else (if neg s y then .ninf else .pinf, 0)
  | (.fin, x), (s, _) => if x = 0 then (.nan, 0) else (if neg s x then .ninf else .pinf, 0)
  | (s, _), (r, _) => (if s = r then .pinf else .ninf, 0)

/-- Values of n elements of w bits, from element i up. -/
def elemVals (f v i : Nat) : Nat → List (Special × Int)
  | 0 => []
  | n + 1 => elemVal f (elemAt v (elemBits f) i) :: elemVals f v (i + 1) n

/-- The exact sum of products of two lists. -/
def dotVals : List (Special × Int) → List (Special × Int) → Special × Int
  | a :: as, b :: bs =>
    let p := mulVal a b
    let r := dotVals as bs
    (combineSp p.1 r.1, p.2 + r.2)
  | _, _ => (.fin, 0)

/-- The largest unbiased exponent of BF16 elements, subnormals counted as −126 (R199). -/
def bfMax (v i : Nat) : Nat → Int
  | 0 => -126
  | n + 1 => max (max (-126) ((bits (elemAt v 16 i) 14 7 : Int) - 127)) (bfMax v (i + 1) n)

/-! ## Tallies (R195 to R200) -/

/-- round_ne: a shift right by k bits to nearest even, and whether a non-zero bit is lost. -/
def roundNe (z : Int) (k : Nat) : Int × Bool :=
  let (m, lost) := roundShift z.natAbs k
  (if z < 0 then -(m : Int) else m, lost)

/-- The exponent of a window's lowest bit (R196). -/
def winLsb (w : Nat) : Int := 4 * (w : Int) - 544

/-- The loop of R200 that makes a sum fit by widening the window. -/
def fitTally (lim : Nat) (s : Int) (w : Nat) (f : Bool) : Nat → Int × Nat × Bool
  | 0 => (s, w, f)
  | n + 1 =>
    if s < -(2 ^ lim : Int) ∨ (2 ^ lim : Int) ≤ s then
      let (r, lost) := roundNe s 4
      fitTally lim r (w + 1) (f || lost) n
    else (s, w, f)

/-- A contribution: value cq * 2^ce, flag, special state, and the window that it sets in an EMPTY tally. -/
structure Contr where
  cq  : Int
  ce  : Int
  cf  : Bool
  sp  : Special
  win : Nat

/-- add_to_tally (R200); `lim` is 111, or 127 for a check tally. In a special state whether a bit is lost is open (assumption 63):
R204 gives such a contribution no integer. -/
def addTally (lim : Nat) (t : Tally) (c : Contr) : Tally :=
  let sp := combineSp t.sp c.sp
  let w := if t.w = 0 then c.win else t.w
  let lsb := winLsb w
  let (cq, lost) := if c.ce < lsb then roundNe c.cq (lsb - c.ce).toNat else (c.cq, false)
  let ce := max c.ce lsb
  let s := t.q + cq * 2 ^ (ce - lsb).toNat
  let (q, w, f) := fitTally lim s w (t.f || lost || c.cf) 400
  { q := q, w := w, f := if sp == .fin then f else t.f || (c.sp == .fin && c.cf) || Config.specialLost t.q c.cq, sp := sp }

/-- The exponent of an E8M0 scale, or none for NaN (R174, R177). -/
def scaleExp (x : Nat) : Option Int := if x = 255 then none else some ((x : Int) - 127)

/-- The operands of one vector against one output: formats, 256 elements each, the scale bytes of eight blocks, and what an error in a
cell adds to the sum, with the cell's logical row. -/
structure DotIn where
  fx : Nat
  fw : Nat
  xs : List (Special × Int)
  ws : List (Special × Int)
  xsc : Nat → Nat
  wsc : Nat → Nat
  xmax : Int
  wmax : Int
  err : Option (Nat × Int) := none

/-- What the errors of rows i to i + n − 1 add to their partial sum. -/
def cellError (d : DotIn) (i n : Nat) : Int :=
  match d.err with
  | some (r, x) => if i ≤ r ∧ r < i + n then x else 0
  | none => 0

/-- The contributions of one vector to one output, in order (R196 to R199, R204). -/
def contribs (d : DotIn) : List Contr :=
  let p := lowBit d.fx + lowBit d.fw
  if fmtIsMx d.fx ∨ fmtIsMx d.fw then
    (upFrom 0 8).map fun b =>
      let (sp, z) := dotVals ((d.xs.drop (32 * b)).take 32) ((d.ws.drop (32 * b)).take 32)
      let sa := if fmtIsMx d.fx then scaleExp (d.xsc b) else some 0
      let sw := if fmtIsMx d.fw then scaleExp (d.wsc b) else some 0
      match sa, sw with
      | some a, some w => { cq := z + cellError d (32 * b) 32, ce := a + w + p, cf := false, sp := sp, win := ((a + w + p - 10 + 544) / 4).toNat }
      | _, _ => { cq := 0, ce := 0, cf := false, sp := .nan, win := 128 }
  else
    let (sp, z) := dotVals d.xs d.ws
    let z := z + cellError d 0 256
    if d.fx = 11 then
      let wc := (-((-(d.xmax + d.wmax + 10 - 111 + 544)) / 4)).toNat
      let lsb := winLsb wc
      let (cq, lost) := if p < lsb then roundNe z (lsb - p).toNat else (z * 2 ^ (p - lsb).toNat, false)
      [{ cq := cq, ce := lsb, cf := lost, sp := sp, win := wc }]
    else [{ cq := z, ce := p, cf := false, sp := sp, win := 128 }]

/-- The exact value of one output's contributions, before any rounding into a window, in units of 2^e (R916). -/
def exactSum (d : DotIn) (e : Int) : Special × Int :=
  if fmtIsMx d.fx ∨ fmtIsMx d.fw then
    (contribs d).foldl (fun acc c => (combineSp acc.1 c.sp, acc.2 + c.cq * 2 ^ (c.ce - e).toNat)) (.fin, 0)
  else
    let (sp, z) := dotVals d.xs d.ws
    (sp, z * 2 ^ (lowBit d.fx + lowBit d.fw - e).toNat)

/-- The exponent below which no exact sum of the formats has a bit. -/
def exactLsb (fx fw : Nat) : Int := if fmtIsMx fx ∨ fmtIsMx fw then lowBit fx + lowBit fw - 254 else lowBit fx + lowBit fw

/-- A check term as it enters a check tally (R916): exact in the fixed window, otherwise rounded once into the window that
its most significant bit sets. -/
def checkContr (windowed : Bool) (t : Tally) (sp : Special) (z e : Int) : Contr :=
  if !windowed then { cq := z, ce := e, cf := false, sp := sp, win := 128 }
  else
    let top : Int := e + (Nat.log2 z.natAbs : Int)
    let w := if t.w ≠ 0 then t.w else if z = 0 then 128 else (-((-(top + 10 - 127 + 544)) / 4)).toNat
    let lsb := winLsb w
    let (cq, lost) := if e < lsb then roundNe z (lsb - e).toNat else (z * 2 ^ (e - lsb).toNat, false)
    { cq := cq, ce := lsb, cf := lost, sp := sp, win := w }

/-! ## The comparison and the drain (R207, R208, R218) -/

/-- The value of a tally in units of 2^e, rounded to nearest even where its window lies below. -/
def tallyAt (t : Tally) (e : Int) : Int :=
  if e ≤ winLsb t.w then t.q * 2 ^ (winLsb t.w - e).toNat else (roundNe t.q (e - winLsb t.w).toNat).1

/-- compare (R218) over the tallies of a vector and its check tally: whether it passes. -/
def compareTallies (ts : List Tally) (ct : Tally) : Bool :=
  let spRow := ts.any (·.sp != .fin)
  if spRow || ct.sp != .fin then spRow == (ct.sp != .fin)
  else
    let ws := ts.map (·.w)
    let hi := ws.foldl max 0
    let lo := ws.foldl min 255
    if ts.all (fun t => !t.f) && !ct.f && decide (hi - lo ≤ 2) then
      let e := (ts.map (fun t => winLsb t.w)).foldl min (winLsb ct.w)
      (ts.map (tallyAt · e)).foldl (· + ·) 0 == tallyAt ct e
    else
      let e := (ts.map (fun t => winLsb t.w)).foldl max (winLsb ct.w)
      let s := (ts.map (tallyAt · e)).foldl (· + ·) 0
      -- in units of the check tally's own window, which is not above lmax
      let k := (e - winLsb ct.w).toNat
      decide ((s * 2 ^ k - ct.q).natAbs ≤ 2 ^ (k + 32))

/-- Whether a vector is a special row, and whether it is a weakened one (R218). -/
def isSpecialRow (ts : List Tally) (ct : Tally) : Bool := ts.any (·.sp != .fin) || ct.sp != .fin
def isWeakenedRow (ts : List Tally) (ct : Tally) : Bool :=
  !isSpecialRow ts ct && (ts.any (·.f) || ct.f
    || decide (2 < (ts.map (·.w)).foldl max 0 - (ts.map (·.w)).foldl min 255))

/-- A tally as a value. -/
def tallyFp (t : Tally) : Fp :=
  match t.sp with
  | .nan => .nan false
  | .pinf => .inf false
  | .ninf => .inf true
  | .fin => .fin (decide (t.q < 0)) t.q.natAbs (winLsb t.w)

/-- The type of a drain output format (R155). -/
def drainType (f : Nat) : EType :=
  match f with
  | 0 => .flt fmtE4M3 | 1 => .flt fmtE5M2 | 2 => .int 8 | 11 => .flt fmtBf16 | 12 => .flt fmtFp16 | 13 => .flt fmtFp32
  | _ => .int 32

/-- One drained element (R207, R208). -/
def drainElem (f : Nat) (t : Tally) : Nat := (cvtOut (drainType f) (tallyFp t)).1

/-- A drained vector of 256 elements as bits. -/
def drainVec (f : Nat) (lanes : Tbl Tally) : Nat :=
  (buildElems (ewidth (drainType f)) (fun j => (drainElem f (tget tally0 lanes j), 0)) 256).1

end Sys2Proof.Machine
end

