-- ==== Sys2Proof/Machine/Matrix.lean ====
section
/-! DEFINITION. The five units of an M-core (R172 to R225, R916 to R918): what a command does at issue, and each event of its
unit. -/

namespace Sys2Proof.Machine

/-! ## Queues (R160) -/

/-- The commands of a queue that its unit has not begun. -/
def queueLen (q : List MCmd) : Nat := (q.filter fun c => c.done == 0).length

/-- The queue that a matrix operation enters. -/
def unitQueue (m : MCore) (opc : Nat) : List MCmd :=
  match opcClass opc with
  | 8 => m.feedQ | 9 => m.arrayQ | 10 => m.mvQ | 11 => m.drainQ | 12 => m.checkQ | _ => []

/-- Whether an operation finds its unit's queue full. -/
def queueFull (m : MCore) (opc : Nat) : Bool := decide (4 ≤ queueLen (unitQueue m opc))

/-! ## Tally slots -/

def bankOf (m : MCore) (b : Bool) : Tbl TSlot := if b then m.bank1 else m.bank0
def setBank (m : MCore) (b : Bool) (t : Tbl TSlot) : MCore := if b then { m with bank1 := t } else { m with bank0 := t }
def arraySlot (m : MCore) (b : Bool) (k : Nat) : TSlot := tget tslot0 (bankOf m b) k

/-- Whether a PASS still has a vector to send to a slot (R157: slots wrap modulo 512). -/
def passWrites (c : MCmd) (b : Bool) (k : Nat) : Bool :=
  c.opc == 0x2A && bit c.w 55 == b && (upFrom c.done (bits c.w 45 30 - c.done)).any fun i => (bits c.w 54 46 + i) % 512 == k

/-- Whether contributions for a slot are on their way. -/
def inFlightTo (m : MCore) (b : Bool) (k : Nat) : Bool := m.flight.any fun f => f.bank == b && f.slot == k

/-- The PASS in progress, unless a vector of the wrong rate class has ended its contributions (R917). -/
def runningPass (m : MCore) : List MCmd :=
  match m.pass with
  | some c => if m.mismatch then [] else [c]
  | none => []

/-! ## The array queue -/

/-- The slots of a TCLR. -/
def tclrSlots (w : Nat) : List Nat := (upFrom 0 (bits w 45 37 + 1)).map fun i => (bits w 54 46 + i) % 512

/-- SWAP and TCLR at the head of the array queue (R180, R225): a TCLR waits for the contributions on their way to its
slots. -/
def runArray (m : MCore) : Nat → MCore
  | 0 => m
  | n + 1 =>
    match m.arrayQ with
    | [] => m
    | c :: rest =>
      if c.opc = 0x29 then runArray { m with arrayQ := rest, swapped := true } n
      else if c.opc = 0x2B then
        let b := bit c.w 55
        if (tclrSlots c.w).any fun k => inFlightTo m b k || (runningPass m).any (passWrites · b k) then m
        else runArray (setBank { m with arrayQ := rest } b ((tclrSlots c.w).foldl tdel (bankOf m b))) n
      else m

/-- Letting the array unit take what it can. -/
def stepArray (s : State) (u : Nat) : State := modM s u fun m => runArray m m.arrayQ.length

/-! ## Reads of the units (R915) -/

/-- A row that a unit reads for a command. -/
def matRead (s : State) (u : Nat) (c : MCmd) (r : Nat) : State × RowRead := coreRead s u r c.slot c.pc c.cyc

/-- Rows that a unit reads, in order, each as its data and its poison marks. -/
def matReads (s : State) (u : Nat) (c : MCmd) (r : Nat) : Nat → State × List (Row × Nat)
  | 0 => (s, [])
  | n + 1 =>
    let (s, rd) := matRead s u c r
    let (s, l) := matReads s u c (r + 1) n
    (s, (BitVec.ofNat 4096 rd.data, rd.pois) :: l)

/-- Bytes off to off + n − 1 of a list of rows. -/
def rowsBytes (rows : List (Row × Nat)) (off n : Nat) : Nat :=
  (((rows.drop (off / 512)).take ((off % 512 + n + 511) / 512)).foldr (fun r acc => r.1.toNat + acc * 2 ^ 4096) 0
    >>> (8 * (off % 512))) % 256 ^ n

/-- Whether a codeword among those bytes is poisoned. -/
def rowsPois (rows : List (Row × Nat)) (off n : Nat) : Bool :=
  (upFrom (off / 16) ((off + n + 15) / 16 - off / 16)).any fun k =>
    match rows[k / 32]? with
    | some r => bit r.2 (k % 32)
    | none => false

/-! ## Reads in time (R161, R179, R215, R221) -/

/-- Reads of n rows from `row` up for a part of a command, the k-th not before an A-cycle. -/
def planReads (c : MCmd) (vec : Bool) (part row n : Nat) (due : Nat → Nat) : List URead :=
  (upFrom 0 n).map fun k => { due := due k, vec := vec, part := part, row := row + k, cmd := c }

def readsLeft (m : MCore) (opc : Nat) : Bool := m.reads.any (·.cmd.opc == opc)

/-- The rows read for a part of a unit's command, in order. -/
def gotPart (m : MCore) (opc part : Nat) : List (Row × Nat) :=
  (m.got.filter fun r => r.opc == opc && r.part == part).map fun r => (r.data, r.pois)

def dropGot (m : MCore) (opc : Nat) : MCore := { m with got := m.got.filter (·.opc != opc) }

/-! ## The feeder (R182 to R184) -/

/-- Feeder queue entries that vectors take: two 4-bit vectors share one. -/
def fifoEntries : List FVec → Nat
  | [] => 0
  | [_] => 1
  | a :: b :: t => if rateClass a.fmt = 4 ∧ rateClass b.fmt = 4 then fifoEntries t + 1 else fifoEntries (b :: t) + 1

/-- FEED reads its next row group once every queue has room for the vectors in it; it reads the scale row of the group's vectors with it
(assumption 76). -/
def feedRead (s : State) (u : Nat) : State :=
  let m := getM s u
  match m.feedQ with
  | [] => s
  | c :: rest =>
    let f := bits c.w 87 84
    let n := bits c.w 67 52
    let st := if bits c.w 51 44 = 0 then 1 else bits c.w 51 44
    let v := vecPerRow f
    let k := min v (n - c.done)
    let need := if rateClass f = 4 then ceilDiv k 2 else k
    if 32 < fifoEntries m.fifo + need then s
    else
      let (s, row) := matReads s u c (bits c.w 83 68 + c.done / v * st) 1
      let (s, sc) := if fmtIsMx f then matReads s u c (bits c.w 43 28 + c.done / 64) 1 else (s, [])
      let vecs := (upFrom 0 k).map fun i =>
        let o := i * vecBytes f
        let p := 8 * ((c.done + i) % 64)
        { fmt := f, data := BitVec.ofNat 4096 (rowsBytes row o (vecBytes f)), scale := BitVec.ofNat 64 (rowsBytes sc p 8),
          pois := rowsPois row o (vecBytes f) || rowsPois sc p 8 : FVec }
      let c := { c with done := c.done + k }
      modM s u fun m => { m with fifo := m.fifo ++ vecs, feedQ := if c.done = n then rest else c :: rest }

/-- FSTOP ends the current FEED after the vectors that it has read. -/
def feedStop (m : MCore) : MCore := { m with feedQ := m.feedQ.drop 1 }

/-! ## Weight tiles (R178 to R181) -/

/-- The tile that an LDW has read is in the shadow buffer once it is complete (R162). -/
def finishLdw (now : Nat) (m : MCore) : MCore :=
  match m.ldw with
  | none => m
  | some c =>
    if readsLeft m 0x28 ∨ now < tget 0 m.dones 0x28 then m
    else
      let rows := gotPart m 0x28 0
      let sc := gotPart m 0x28 1
      dropGot { m with ldw := none, shadow := { fmt := some (bits c.w 55 52), rows := rows.map (·.1), scales := sc.map (·.1),
                                                pois := (rows ++ sc).any (·.2 != 0) } } 0x28

/-! ## Vectors through the array (R185 to R188, R917) -/

/-- Sends the next n vectors of the pass towards their slots. -/
def sendVectors (m : MCore) (c : MCmd) (n : Nat) : MCore :=
  let vs := m.fifo.take n
  let fl := if m.mismatch then [] else vs.zipIdx.map fun p =>
    { cyc := c.cyc, bank := bit c.w 55, slot := (bits c.w 54 46 + c.done + p.2) % 512, vec := p.1, tile := m.active : Contrib }
  let c := { c with done := c.done + vs.length }
  { m with fifo := m.fifo.drop n, flight := m.flight ++ fl, pass := if c.done = bits c.w 45 30 then none else some c }

/-- The vector due enters logical row 0, or a bubble in its place. A PASS with accumulate 0 holds until its slot is EMPTY.
A vector of another rate class than the active tile's ends the contributions of the pass and raises OPERAND. -/
def vectorEntry (s : State) (u : Nat) : State :=
  let m := getM s u
  match m.pass, m.fifo with
  | some c, v :: t =>
    let two := rateClass v.fmt == 4 && decide (c.done + 2 ≤ bits c.w 45 30)
      && (match t with | v2 :: _ => rateClass v2.fmt == 4 | [] => false)
    let n := if two then 2 else 1
    let b := bit c.w 55
    let busy := !bit c.w 29 && !m.mismatch && (upFrom c.done n).any fun i =>
      let k := (bits c.w 54 46 + i) % 512
      (arraySlot m b k).live || inFlightTo m b k
    let wrong := match m.active.fmt with | some f => rateClass f != rateClass v.fmt | none => false
    if busy then s
    else if wrong && !m.mismatch then
      let s := stepArray (setM s u (sendVectors { m with mismatch := true } c n)) u
      programFault s u c.opc [(c.slot, 3, 0)] c.pc c.cyc
    else stepArray (setM s u (sendVectors m c n)) u
  | _, _ => s

/-- The elements of one vector. -/
def vecElems (v : FVec) : List (Special × Int) := elemVals v.fmt v.data.toNat 0 256

/-- What one vector meets in column j of a tile (R174 to R178, R199, R918): the zero tile has zero weights and zero column
exponent maxima; a NaN or infinite element makes NaN against a zero weight too (assumption 77). -/
def dotIn (v : FVec) (t : Tile2) (j : Nat) : DotIn :=
  let x := v.data.toNat
  let tb := t.rows.foldr (fun r acc => r.toNat + acc * 2 ^ 4096) 0
  let ts := t.scales.foldr (fun r acc => r.toNat + acc * 2 ^ 4096) 0
  let xsc := fun b => bits v.scale.toNat (8 * b + 7) (8 * b)
  let xm := bfMax x 0 256
  match t.fmt with
  | none =>
    { fx := v.fmt, fw := if v.fmt = 11 then 11 else 2, xs := vecElems v, ws := List.replicate 256 (.fin, 0), xsc := xsc,
      wsc := fun _ => 127, xmax := xm, wmax := 0 }
  | some f =>
    let stride := if fmtIsSix f then 1536 else 8 * vecBytes f
    let at_ := fun i => (tb >>> (i * stride + j * elemBits f)) % 2 ^ elemBits f
    { fx := v.fmt, fw := f, xs := vecElems v, ws := (upFrom 0 256).map fun i => elemVal f (at_ i), xsc := xsc,
      wsc := fun b => bits ts (8 * (256 * b + j) + 7) (8 * (256 * b + j)), xmax := xm,
      wmax := (upFrom 0 256).foldl (fun a i => max a (max (-126) ((bits (at_ i) 14 7 : Int) - 127))) (-126) }

/-- An error of a cell in terms of the logical array: the row, the column and what it adds. -/
structure CellError where
  row : Nat
  col : Nat
  add : Int

/-- The contributions of one vector to column j, with the error of a cell; the zero tile's window in an MX pass is open. -/
def colContribs (v : FVec) (t : Tile2) (z : Option CellError) (j : Nat) : List Contr :=
  let err := match z with | some z => if z.col = j then some (z.row, z.add) else none | none => none
  let l := contribs { dotIn v t j with err := err }
  if t.fmt.isNone ∧ fmtIsMx v.fmt then
    l.map fun c => { c with win := (Config.zeroTileWindow v.fmt).val + 1, ce := winLsb ((Config.zeroTileWindow v.fmt).val + 1) }
  else l

/-- A vector's contributions reach a slot (R200, R217, R916): its 256 tallies and its check tally, which no error of a cell reaches. -/
def slotAdd (sl : TSlot) (v : FVec) (t : Tile2) (z : Option CellError) : TSlot :=
  let fw := match t.fmt with | some f => f | none => if v.fmt = 11 then 11 else 2
  let e := exactLsb v.fmt fw
  let lanes := (upFrom 0 256).foldl (fun l j => tset tally0 l j ((colContribs v t z j).foldl (addTally 111) (tget tally0 l j))) sl.lanes
  let (sp, z) := (upFrom 0 256).foldl (fun acc j =>
    let r := exactSum (dotIn v t j) e
    (combineSp acc.1 r.1, acc.2 + r.2)) (Special.fin, (0 : Int))
  let windowed := fmtIsMx v.fmt || fmtIsMx fw || v.fmt == 11
  { live := true, lanes := lanes, chk := addTally 127 sl.chk (checkContr windowed sl.chk sp z e), pois := sl.pois || v.pois || t.pois }

/-! ## The physical array (R189 to R192) -/

/-- Logical position m of a group as a physical index. -/
def physIndex (skip m : Nat) : Nat := if m < skip then m else m + 1
/-- The skip index of a row group and of a column group (R191). -/
def rowSkip (m : MCore) (g : Nat) : Nat := bits m.map0.toNat (6 * g + 5) (6 * g)
def colSkip (m : MCore) (g : Nat) : Nat := bits m.map1.toNat (7 * g + 6) (7 * g)
/-- The physical row of a logical row, and the physical column of a logical column. -/
def physRow (m : MCore) (i : Nat) : Nat := 33 * (i / 32) + physIndex (rowSkip m (i / 32)) (i % 32)
def physCol (m : MCore) (j : Nat) : Nat := 65 * (j / 64) + physIndex (colSkip m (j / 64)) (j % 64)
/-- An error of a physical cell as the logical array meets it: not at all where the map skips its row or its column (R190). -/
def cellError? (m : MCore) (z : CellUpset) : Option CellError :=
  match (upFrom 0 256).find? (physRow m · == z.row.val), (upFrom 0 256).find? (physCol m · == z.col.val) with
  | some i, some j => some { row := i, col := j, add := z.add }
  | _, _ => none

/-- The oldest contribution on its way reaches its slot. -/
def tallyAdd (s : State) (u : Nat) (z : Option CellUpset) : State :=
  let m := getM s u
  match m.flight with
  | [] => s
  | f :: rest =>
    let sl := slotAdd (arraySlot m f.bank f.slot) f.vec f.tile (z.bind (cellError? m))
    stepArray (setM s u (setBank { m with flight := rest } f.bank (tset tslot0 (bankOf m f.bank) f.slot sl))) u

/-! ## The matrix-vector path (R213 to R216) -/

/-- The slots of an MVM (R214). -/
def mvmSlots (w : Nat) : List Nat := upFrom (bits w 28 23) (ceilDiv (bits w 51 37 + 1) 256)

/-- CHKCS at the head of the check queue begins when its MVM has issued its last weight read, and then reads its column sums
(R220, R221). -/
def attachChk (s : State) (u : Nat) : State :=
  let m := getM s u
  match m.checkQ with
  | [] => s
  | c :: rest =>
    if c.opc = 0x3D ∧ m.mvJobs.any (·.chk.isNone) then
      let i := m.mvJobs.findIdx (·.chk.isNone)
      let t := max (unitNow s u) ((m.mvJobs[i]?).elim 0 (·.last) + 1)
      setM s u { m with checkQ := rest, mvJobs := lmod m.mvJobs i fun j => { j with chk := some c },
                        reads := m.reads ++ planReads c false 0 (bits c.w 55 40) (8 * bits c.w 39 32) fun _ => t }
    else s

/-- The chunks of an MVM's vector, from the rows and scale rows read for it. -/
def mvChunks (f chunks : Nat) (rows sc : List (Row × Nat)) : List FVec :=
  (upFrom 0 chunks).map fun c =>
    let b := vecBytes f
    { fmt := f, data := BitVec.ofNat 4096 (rowsBytes rows (c * b) b), scale := BitVec.ofNat 64 (rowsBytes sc (8 * c) 8),
      pois := rowsPois rows (c * b) b || rowsPois sc (8 * c) 8 }

/-- One output of an MVM: its tally over every chunk, and its poison. -/
def mvOutput (f : Nat) (xs : List FVec) (ws sc : List (Row × Nat)) (o : Nat) : Tally × Bool :=
  let n := xs.length
  let b := vecBytes f
  xs.zipIdx.foldl (fun acc p =>
    let k := o * n + p.2
    let w := rowsBytes ws (k * b) b
    let scale := rowsBytes sc (8 * k) 8
    let d : DotIn := {
      fx := f, fw := f, xs := vecElems p.1, ws := elemVals f w 0 256, xsc := fun i => bits p.1.scale.toNat (8 * i + 7) (8 * i),
      wsc := fun i => bits scale (8 * i + 7) (8 * i), xmax := bfMax p.1.data.toNat 0 256, wmax := bfMax w 0 256 }
    ((contribs d).foldl (addTally 111) acc.1, acc.2 || p.1.pois || rowsPois ws (k * b) b || rowsPois sc (8 * k) 8))
    (tally0, false)

/-- Pairs of an output and a chunk that the matrix-vector path takes in one A-cycle (R213). -/
def pairsPerCycle (f : Nat) : Nat := if rateClass f = 16 then 4 else 8

/-- The reads of an MVM that begins in A-cycle t (R213, R215): each row in the cycle of the first pair that needs it, vector and scale
rows on the vector port. -/
def mvmReads (c : MCmd) (t : Nat) : List URead :=
  let f := bits c.w 87 84
  let n := (bits c.w 51 37 + 1) * bits c.w 36 29
  let p := pairsPerCycle f
  let v := vecPerRow f
  planReads c true 2 (bits c.w 67 52) (ceilDiv (bits c.w 36 29) v) (fun k => t + k * v / p)
  ++ (if fmtIsMx f then planReads c true 3 (bits c.w 22 7) 4 (fun k => t + k * 64 / p) else [])
  ++ planReads c false 0 (bits c.w 83 68) (ceilDiv n v) (fun k => t + k * v / p)
  ++ (if fmtIsMx f then planReads c true 1 (bits c.w 22 7 + 4) (ceilDiv n 64) (fun k => t + k * 64 / p) else [])

/-- An MVM whose rows are all read fills its slots (R214). -/
def finishMvm (m : MCore) : MCore :=
  match m.mvJobs.find? (·.xs.isEmpty) with
  | none => m
  | some j =>
    if readsLeft m 0x30 then m
    else
      let w := j.cmd.w
      let f := bits w 87 84
      let xs := mvChunks f (bits w 36 29) (gotPart m 0x30 2) (gotPart m 0x30 3)
      let (wr, wsc) := (gotPart m 0x30 0, gotPart m 0x30 1)
      let slots := (upFrom 0 (bits w 51 37 + 1)).foldl (fun t o =>
        let r := mvOutput f xs wr wsc o
        tmod tslot0 t (bits w 28 23 + o / 256) fun sl =>
          { sl with live := true, lanes := tset tally0 sl.lanes (o % 256) r.1, pois := sl.pois || r.2 }) m.mvSlots
      dropGot { m with mvSlots := slots, mvJobs := m.mvJobs.map fun x =>
                  if x.xs.isEmpty then { x with xs := xs, drained := tget 0 m.dones 0x30 } else x } 0x30

/-- A CHKCS whose column sums are all read. The sums carry no poison into the test (assumption 78). -/
def finishChk (m : MCore) : MCore :=
  match m.mvJobs.find? fun j => j.chk.isSome && j.sums.isEmpty with
  | none => m
  | some _ =>
    if readsLeft m 0x3D then m
    else
      let sums := (gotPart m 0x3D 0).map (·.1)
      dropGot { m with mvJobs := m.mvJobs.map fun x =>
                  if x.chk.isSome ∧ x.sums.isEmpty then { x with sums := sums, drained := max x.drained (tget 0 m.dones 0x3D) } else x } 0x3D

/-- The units of an M-core at this moment: reads that are due are made, and what is complete takes effect. -/
def settleM (s : State) (u : Nat) : State :=
  let now := unitNow s u
  modM (catchUp s u) u fun m => finishLdw now (finishChk (finishMvm m))

/-- LDW begins to read its rows, then its scale rows, into the shadow buffer, once that buffer is free (R179, R181). -/
def ldwBegin (s : State) (u : Nat) : State :=
  let s := settleM s u
  let m := getM s u
  match m.arrayQ with
  | [] => s
  | c :: rest =>
    if c.opc ≠ 0x28 ∨ m.swapped ∨ m.ldw.isSome ∨ unitNow s u < m.busyTill then s
    else
      let f := bits c.w 55 52
      let t := fun (_ : Nat) => unitNow s u
      let l := planReads c false 0 (bits c.w 51 36) (tileRows f) t
        ++ (if fmtIsMx f then planReads c false 1 (bits c.w 34 19) 4 t else [])
      stepArray (settleM (setM s u { m with arrayQ := rest, ldw := some c, reads := m.reads ++ l }) u) u

/-- A PASS begins, and one of no vectors is over at once; a tile that SWAP marked becomes active once its LDW is complete, and the buffer
that it leaves is free 514 A-cycles later (R180, R181). -/
def passBegin (s : State) (u : Nat) : State :=
  let s := settleM s u
  let m := getM s u
  match m.pass, m.arrayQ with
  | none, c :: rest =>
    if c.opc ≠ 0x2A ∨ (m.swapped ∧ m.ldw.isSome) then s
    else
      let m := { m with arrayQ := rest, pass := if bits c.w 45 30 = 0 then none else some c, mismatch := false }
      let m := if m.swapped then { m with active := m.shadow, shadow := m.active, swapped := false,
                                          busyTill := unitNow s u + 514 } else m
      stepArray (setM s u m) u
  | _, _ => s

/-- An MVM begins once its slots are EMPTY and the CHKCS of the MVM before it has issued its last read (R214, R216). -/
def mvmBegin (s : State) (u : Nat) : State :=
  let s := settleM s u
  let m := getM s u
  match m.mvQ with
  | [] => s
  | c :: rest =>
    if (mvmSlots c.w).any (fun k => (tget tslot0 m.mvSlots k).live) ∨ m.mvJobs.any (·.chk.isNone) ∨ readsLeft m 0x3D then s
    else
      let t := unitNow s u
      let n := ceilDiv ((bits c.w 51 37 + 1) * bits c.w 36 29) (pairsPerCycle (bits c.w 87 84))
      let j : MvJob := { cmd := c, last := t + n - 1, xs := [], chk := none, sums := [], drained := 0 }
      attachChk (settleM (setM s u { m with mvQ := rest, mvJobs := m.mvJobs ++ [j], reads := m.reads ++ mvmReads c t }) u) u

/-- Entry i of chunk c of the column sums (R220): its special state and its value in units of 2^−544; an exponent of 0 with a finite
state is a zero (assumption 79). -/
def colSum (sums : List Row) (c i : Nat) : Special × Int :=
  let r := ((sums[8 * c + i / 32]?).getD 0).toNat
  let x := bits r (128 * (i % 32) + 127) (128 * (i % 32))
  let q := sx 120 (bits x 127 8)
  if x % 256 = 0 then
    (match bits x 9 8 with | 0 => .fin | 1 => .pinf | 2 => .ninf | _ => .nan, 0)
  else (.fin, q * 2 ^ (4 * (x % 256)))

/-- The check tally that CHKCS forms for an MVM: Σ_i s_i x_i, chunk by chunk (R221, R916). -/
def chkTally (j : MvJob) : Tally :=
  let f := bits j.cmd.w 87 84
  let mx := fmtIsMx f
  let e : Int := lowBit f - 544 - (if mx then 127 else 0)
  j.xs.zipIdx.foldl (fun t p =>
    let terms := (vecElems p.1).zipIdx.map fun x =>
      let y := mulVal x.1 (colSum j.sums p.2 x.2)
      if mx then
        match scaleExp (bits p.1.scale.toNat (8 * (x.2 / 32) + 7) (8 * (x.2 / 32))) with
        | some a => (y.1, y.2 * 2 ^ (a + 127).toNat)
        | none => (.nan, 0)
      else y
    let (sp, z) := terms.foldl (fun acc y => (combineSp acc.1 y.1, acc.2 + y.2)) (Special.fin, (0 : Int))
    addTally 127 t (checkContr (mx || f == 11) t sp z e)) tally0

/-- The tallies of an MVM's outputs. -/
def mvTallies (m : MCore) (w : Nat) : List Tally :=
  (upFrom 0 (bits w 51 37 + 1)).map fun o => tget tally0 (tget tslot0 m.mvSlots (bits w 28 23 + o / 256)).lanes (o % 256)

/-- The comparisons that met a weakened or a special row (R218). -/
def countRow (m : MCore) (ts : List Tally) (ct : Tally) : MCore :=
  { m with weakened := sat48 m.weakened (ofBool (isWeakenedRow ts ct)), specials := sat48 m.specials (ofBool (isSpecialRow ts ct)) }

/-- The comparator tests an MVM against its CHKCS once both are complete (R221): if the test fails, every row drained from its slots
carries poison, and CHECKCOL is raised at the first of them. -/
def chkcsTest (s : State) (u : Nat) : State :=
  let s := settleM s u
  let m := getM s u
  match m.mvJobs with
  | [] => s
  | j :: rest =>
    if j.xs.isEmpty ∨ j.sums.isEmpty ∨ unitNow s u < j.drained then s
    else
      let ok := compareTallies (mvTallies m j.cmd.w) (chkTally j) || !bit s.chk.enables.toNat 1
      let ks := mvmSlots j.cmd.w
      let m := countRow { m with mvJobs := rest } (mvTallies m j.cmd.w) (chkTally j)
      let m := if ok then m else
        { m with mvSlots := ks.foldl (fun t k => tmod tslot0 t k fun x => { x with pois := true }) m.mvSlots,
                 mvBad := m.mvBad ++ [(bits j.cmd.w 28 23, ks.length)] }
      attachChk (setM s u m) u

/-- Whether the work of the check column's owner that was queued before a CHKOWN has been checked (R159, R224); work issued after the
CHKOWN does not hold it up (assumption 80). -/
def ownerIdle (m : MCore) (cyc : Nat) : Bool :=
  let older := fun (q : List MCmd) => q.any fun c => decide (c.cyc ≤ cyc)
  if m.owner then !older (m.mvQ ++ m.mvJobs.map (·.cmd))
  else !older (m.pass.toList ++ m.arrayQ.filter fun c => c.opc == 0x2A) && !(m.flight.any fun f => decide (f.cyc ≤ cyc))
    && !older (m.drainQ.filter fun c => bits c.w 55 54 != 2)

/-- How long the check column's next owner has waited beyond the timetable's plan (R72): the A-cycles since the planned start of one of its
ranges, at most those since the CHKOWN (assumption 88). -/
def ownerLate (s : State) (u cyc now : Nat) (mv : Bool) : Nat :=
  let c := getCore s u
  match c.plc.bind fun p => (getPlc s p.val).img.bind fun im => im.units.find? fun i => c.logical == some i.logical with
  | some i =>
    let cad := max 1 (cyclesOf .m i.cadence)
    let late := ((i.owners.filter fun o => o.1 == mv).map fun o => (now + cad - o.2.1 % cad) % cad).min?
    min (now - cyc) (late.getD 0)
  | none => 0

/-- CHKOWN takes effect; a wait beyond the plan of a unit that a substitution has moved is silt (R72). -/
def chkownHandover (s : State) (u : Nat) : State :=
  let m := getM s u
  match m.checkQ with
  | [] => s
  | c :: rest =>
    if c.opc = 0x3C ∧ ownerIdle m c.cyc then
      let mv := bit c.w 55
      let s := match (getCore s u).plc, (getCore s u).logical with
        | some p, some l => if l.val = u then s else addSlip s p.val (some u) (regionOf u) (kCycles .m (ownerLate s u c.cyc (unitNow s u) mv))
        | _, _ => s
      attachChk (setM s u { m with checkQ := rest, owner := mv }) u
    else s

/-! ## The drain (R207 to R212, R218, R219) -/

/-- Whether a DRAIN must wait for a slot of the array: contributions on their way, a PASS that adds to it, or, while it is
EMPTY, any queued PASS that writes it (R210). -/
def arrayWaits (m : MCore) (c : MCmd) (b : Bool) (k : Nat) : Bool :=
  let writers := (runningPass m ++ m.arrayQ).filter (passWrites · b k)
  inFlightTo m b k ||
    (if (arraySlot m b k).live then
      match writers.find? fun x => decide (x.cyc ≤ c.cyc) with
      | some x => bit x.w 29
      | none => false
     else !writers.isEmpty)

/-- The same for a slot of the matrix-vector path: its MVM must have been tested (R221). -/
def mvWaits (m : MCore) (k : Nat) : Bool :=
  m.mvJobs.any (fun j => (mvmSlots j.cmd.w).contains k)
    || (!(tget tslot0 m.mvSlots k).live && m.mvQ.any fun c => (mvmSlots c.w).contains k)

/-- Rows of a drain enter the send buffer of its stream port, one credit each, while it has credits and room (R211, R291): how many, and
the state after. -/
def drainPush (s : State) (u port : Nat) (rows : List (Row × Bool)) : State × Nat :=
  match tfind (getCore s u).outPorts port, portSeg s u port with
  | some (q, id), some g =>
    let n := min (min g.credits (bufRoom g)) rows.length
    let l := (rows.take n).map fun r => { data := r.1, poison := if r.2 then BitVec.allOnes 32 else 0 : PRow }
    (if n = 0 then s else pushRows (modSeg s q.val id fun g => { g with credits := g.credits - n }) q.val id
      (asStream (getCore s u).lag l), n)
  | _, _ => (s, rows.length)

/-- The rows of vector k of a DRAIN (R209), with the half row that waits for its partner. -/
def drainPack (f k n data : Nat) (pois : Bool) (half : Option (BitVec 2048 × Bool)) :
    List (Row × Bool) × Option (BitVec 2048 × Bool) :=
  match drainHalves f with
  | 4 => ([(BitVec.ofNat 4096 data, pois), (BitVec.ofNat 4096 (data >>> 4096), pois)], none)
  | 2 => ([(BitVec.ofNat 4096 data, pois)], none)
  | _ =>
    if k % 2 = 0 then
      if k + 1 = n then ([(BitVec.ofNat 4096 (data % 2 ^ 2048), pois)], none) else ([], some (BitVec.ofNat 2048 data, pois))
    else
      match half with
      | some h => ([(BitVec.ofNat 4096 (h.1.toNat + data % 2 ^ 2048 * 2 ^ 2048), pois || h.2)], none)
      | none => ([(BitVec.ofNat 4096 (data % 2 ^ 2048 * 2 ^ 2048), pois)], none)

/-- What a DRAIN reads at its slot: the slot, its data in the output format, whether it is poisoned, and whether a check
fails there and is to be raised. -/
structure Drained where
  slot : TSlot
  data : Nat
  fail : Bool

/-- Reading slot k of a DRAIN's source (R207, R210, R218). -/
def drainRead (s : State) (m : MCore) (src k f : Nat) : Drained :=
  if src = 2 then
    let sl := tget tslot0 m.mvSlots k
    { slot := sl, data := if 64 ≤ k then (Config.openDrain s.free).toNat else drainVec f sl.lanes,
      fail := m.mvBad.any fun r => decide (r.1 ≤ k ∧ k < r.1 + r.2) }
  else
    let sl := arraySlot m (src == 1) k
    let ts := (upFrom 0 256).map fun j => tget tally0 sl.lanes j
    { slot := sl, data := drainVec f sl.lanes,
      fail := sl.live && bit s.chk.enables.toNat 0 && !compareTallies ts sl.chk }

/-- Reading a slot makes it EMPTY; a failed matrix-vector check is raised once. -/
def drainClear (m : MCore) (src k : Nat) : MCore :=
  if src = 2 then
    { m with mvSlots := tdel m.mvSlots k, mvBad := m.mvBad.filter fun r => !decide (r.1 ≤ k ∧ k < r.1 + r.2) }
  else setBank m (src == 1) (tdel (bankOf m (src == 1)) k)

/-- The flagged and special counters of the placement (R212). -/
def countDrain (s : State) (u : Nat) (sl : TSlot) : State :=
  match plcOf s u with
  | none => s
  | some p =>
    let fl := sl.lanes.any fun e => e.2.f
    let sp := sl.lanes.any fun e => e.2.sp != .fin
    if fl || sp then
      modPlc s p fun x =>
        { x with flagged := sat48 x.flagged (ofBool fl), special := sat48 x.special (ofBool sp), changed := true }
    else s

/-- CHECKCOL (R219, R914). -/
def raiseCheckcol (s : State) (u : Nat) (c : MCmd) (d : Drained) (row k : Nat) (rows : List Row) : State :=
  let stream := bit c.w 31
  let detail := fields [(if stream then bits c.w 30 28 else row, 32), (ofBool stream, 31), (bits c.w 55 54, 29), (k, 20)]
  let s := detectorFault s u 0x24 c.slot c.pc c.cyc detail
  captureArb s u 0x24 c.cyc rows (d.slot.chk.q :: (d.slot.chk.w : Int) :: d.slot.lanes.flatMap fun e => [e.2.q, (e.2.w : Int)])

/-- The rows of a drained vector to rows. -/
def drainLand (s : State) (u first : Nat) (rows : List (Row × Bool)) : State :=
  rows.zipIdx.foldl (fun s p =>
    let r := first + p.2
    let s := landRow s u r p.1.1.toNat p.1.2
    modCore s u fun c => { c with drainOut := c.drainOut.erase r }) (settleCore s u)

/-- Slot k of a DRAIN is drained: it is EMPTY, its comparison is counted, and a failed one raises CHECKCOL (R210, R212, R218, R219). -/
def drainTaken (s : State) (u src k : Nat) (c : MCmd) (d : Drained) (half : Option (BitVec 2048 × Bool)) (first : Nat)
    (rows : List Row) : State :=
  let m := getM s u
  let m := { m with half := half, sent := 0,
                    drainQ := if c.done + 1 = bits c.w 44 36 + 1 then m.drainQ.drop 1 else { c with done := c.done + 1 } :: m.drainQ.drop 1 }
  let ts := (upFrom 0 256).map fun j => tget tally0 d.slot.lanes j
  let m := if src = 2 ∨ !d.slot.live then m else countRow m ts d.slot.chk
  let s := if src = 2 ∧ 64 ≤ k then bumpFree s else s
  let s := countDrain (setM s u (drainClear m src k)) u d.slot
  if d.fail then raiseCheckcol s u c d first k rows else s

/-- The drain takes the next slot of its command: it waits for the slot's tallies to be final, and, where its rows go to a stream
port, for a credit and a place for each of them; the slot stays LIVE meanwhile. -/
def drainVector (s : State) (u : Nat) : State :=
  let s := settleM s u
  let m := getM s u
  match m.drainQ with
  | [] => s
  | c :: _ =>
    let src := bits c.w 55 54
    let n := bits c.w 44 36 + 1
    let f := bits c.w 35 32
    let k := if src = 2 then bits c.w 53 45 + c.done else (bits c.w 53 45 + c.done) % 512
    if (if src = 2 then mvWaits m k else arrayWaits m c (src == 1) k) then s
    else
      let d := drainRead s m src k f
      let pois := d.slot.pois || d.fail || (getCore s u).pstate
      let (rows, half) := drainPack f c.done n d.data pois m.half
      let first := bits c.w 30 15 + c.done * drainHalves f / 2
      if bit c.w 31 then
        let left := rows.drop m.sent
        let (s, n) := drainPush s u (bits c.w 30 28) left
        if n = left.length then stepArray (drainTaken s u src k c d half first (rows.map (·.1))) u
        else modM s u fun m => { m with sent := m.sent + n }
      else stepArray (drainLand (drainTaken s u src k c d half first (rows.map (·.1))) u first rows) u

/-! ## Issue -/

/-- A matrix operation at issue (R159, R160): its unit's queue takes it; FSTOP acts at once; an MVM opens the pair that its
CHKCS closes (R222); the rows of a DRAIN to rows are outstanding (R138). -/
def matrixEffect (s : State) (u : Nat) (c : Core) (op : SlotOp) : State :=
  let cmd : MCmd := { opc := op.opc, w := op.w, slot := op.slot, pc := c.pc, cyc := c.cycle, done := 0 }
  let add := fun (s : State) (f : MCore → MCore) => modM s u f
  match opcClass op.opc with
  | 8 => if op.opc = 0x21 then add s feedStop else add s fun m => { m with feedQ := m.feedQ ++ [cmd] }
  | 9 => stepArray (add s fun m => { m with arrayQ := m.arrayQ ++ [cmd] }) u
  | 10 => add s fun m => { m with mvQ := m.mvQ ++ [cmd], mvOpen := some (bits op.w 36 29) }
  | 11 =>
    let s := add s fun m => { m with drainQ := m.drainQ ++ [cmd] }
    if bit op.w 31 then s
    else
      let out := upFrom (bits op.w 30 15) (drainRows (bits op.w 35 32) (bits op.w 44 36 + 1))
      modCore s u fun c => { c with drainOut := c.drainOut ++ out }
  | 12 =>
    attachChk (add s fun m => { m with checkQ := m.checkQ ++ [cmd], mvOpen := if op.opc = 0x3D then none else m.mvOpen }) u
  | _ => s

/-- An event of a unit of an M-core that a placement has loaded. -/
def onM (s : State) (u : Nat) (f : State → Nat → State) : State :=
  clocked s (if kindOf s u == some .mCore && (getCore s u).plc.isSome then f s u else s)

end Sys2Proof.Machine
end

