-- ==== Sys2Proof/Machine/Issue.lean ====
section
/-! DEFINITION. Issue (R96, R104 to R107, R119 to R129, R163 to R168): a bundle waits, faults, stalls or issues with every
slot; silt and idle cycles of what it waited for (R65 to R73). -/

namespace Sys2Proof.Machine

/-! ## Silt of waits and stalls -/

/-- A stage issues at K-cycle `k` what the static report schedules for `due`, reached at `since`, with lag `l` from its inputs (R68,
R71, R74): what passes the schedule and the lag already carried is a slip in its region, and its lag grows by it. -/
def slipPast (s : State) (u k due since l : Nat) : State :=
  let c := getCore s u
  let lag := max c.lag l
  let n := k - max (due + lag) since
  match c.plc with
  | some p => addSlip (modCore s u fun c => { c with lag := lag + n }) p.val (some u) (regionOf u) n
  | none => s

/-- Whether a target of a WAITC counts a row of a request, and whether it counts them all (R123). -/
def dueBy (t : BitVec 32) (d : Due) : Bool := d.start != t && !(t - d.start).msb
def dueAll (t : BitVec 32) (d : Due) : Bool := !(t - (d.start + BitVec.ofNat 32 d.n)).msb

/-- The requests whose rows a WAITC waits for (R65). -/
def duesOf (c : Core) (ctr : Nat) (t : BitVec 32) : List Due := c.dues.filter fun d => d.counter == ctr && dueBy t d
/-- The scheduled K-cycle of the rows that a WAITC waits for, if a bound is declared, and the largest lag of those who sent them. -/
def dueAt (l : List Due) : Option Nat := l.foldl (fun a d => match a, d.at_ with | some x, some y => some (max x y) | none, y => y | x, none => x) none
def dueLag (l : List Due) : Nat := l.foldl (fun a d => max a d.lag) 0

/-- Whether rows came before their bound, so that the stage still waits for its scheduled cycle under the lag that it carries (R67,
assumption 94). -/
def early (c : Core) (ctr : Nat) (t : BitVec 32) : Bool :=
  let l := duesOf c ctr t
  match dueAt l with
  | some d => decide (kAt c c.cycle < d + max c.lag (dueLag l))
  | none => false

/-- A WAITC's cycles end (R68, R127): what passes the schedule of its rows is silt, and the stage takes over the lag of its inputs. -/
def settleDues (s : State) (u ctr since : Nat) (t : BitVec 32) : State :=
  let c := getCore s u
  let l := duesOf c ctr t
  let s := match dueAt l with
    | some d => slipPast s u (kAt c c.cycle) d (kAt c since) (dueLag l)
    | none => modCore s u fun c => { c with lag := max c.lag (dueLag l) }
  modCore s u fun c => { c with dues := c.dues.filter fun d => !(d.counter == ctr && dueAll t d) }

/-! ## Acceptance at the input stage (R60, R73, R88, R89) -/

/-- The intake entry that a core's counter is bound to, with its number in the host section (R548). -/
def intakeOf (s : State) (p u ctr : Nat) : Option (Nat × Intake) :=
  match hostOf (getPlc s p) with
  | some h => (h.intake.zipIdx.find? fun i => i.1.counter.toNat == ctr && siteOfId s i.1.dst.toNat == some u).map fun i => (i.2, i.1)
  | none => none

/-- The cadence of the unit that stands at a core's site (R60). -/
def cadenceOf (s : State) (p u : Nat) : Nat :=
  match (getPlc s p).img with
  | some im => (im.units.find? fun i => (getCore s u).logical == some i.logical).elim 0 (·.cadence)
  | none => 0

/-- What a counter's target takes of the descriptors delivered (R550, R551): from `a` samples accepted and the counter `c0` before the
rows of the first of them that is not wholly accepted, the same two afterwards. -/
def takeBatches (lead bytes : Nat) (t : BitVec 32) (a : Nat) (c0 : BitVec 32) : List (Nat × Nat) → Nat × BitVec 32
  | [] => (a, c0)
  | b :: l =>
    let rows := lead + ceilDiv (b.2 * bytes) 512
    if b.1 + b.2 ≤ a then takeBatches lead bytes t a c0 l
    else if (t - c0).msb ∨ (t - c0).toNat < lead then (a, c0)
    else if rows ≤ (t - c0).toNat then takeBatches lead bytes t (b.1 + b.2) (c0 + BitVec.ofNat 32 rows) l
    else (max a (b.1 + min (b.2 - 1) (((t - c0).toNat - lead) * 512 / bytes)), c0)

/-- The samples accepted on intake entry i once a WAITC's target is met, and the counter before what follows them. -/
def acceptBy (x : Placement) (i : Nat × Intake) (t : BitVec 32) : Nat × BitVec 32 :=
  takeBatches (match hostOf x with | some h => if i.1 = 0 ∧ h.lead then 1 else 0 | none => 0) i.2.bytes t (tget 0 x.acceptN i.1)
    (tget 0 x.acceptT i.1) x.batches

/-- Whether the input stage accepts no sample now: before the cadence has passed since the last (R60), with 16,384 in flight or the next
tag's sample undecided (R88, R89), while the placement drains (R321), or while the power limiter holds inputs (R717). -/
def acceptWaits (s : State) (p u : Nat) (i : Nat × Intake) (t : BitVec 32) : Bool :=
  let x := getPlc s p
  let had := tget 0 x.acceptN i.1
  let n := (acceptBy x i t).1
  let c := getCore s u
  had != n && (x.drain.isSome || s.chk.inputHold || decide (16384 < n - x.left) || (upFrom had (n - had)).any (tagBusy s p)
    || (had != 0 && decide (kAt c c.cycle < tget 0 x.acceptK i.1 + cadenceOf s p u)))

/-- The input stage accepts samples: a sample counts once every intake entry has taken it, and a descriptor keeps the
cycle of its first sample's acceptance (R701). -/
def acceptRows (s : State) (p u : Nat) (i : Nat × Intake) (t : BitVec 32) : State :=
  let x := getPlc s p
  let (n, c0) := acceptBy x i t
  if n = tget 0 x.acceptN i.1 then s else
  let now := kAt (getCore s u) (getCore s u).cycle
  let x := { x with acceptT := tset 0 x.acceptT i.1 c0, acceptN := tset 0 x.acceptN i.1 n, acceptK := tset 0 x.acceptK i.1 now }
  let begun := fun (d : Desc) => descLive d && decide (d.first < accepted x) && d.accept.isNone
  setPlc (setDescs s p ((getDescs s p).map fun d => if begun d then { d with accept := some now } else d)) p x

/-- What the cycles of a WAITC that issues count as (R73, R127): idle on an intake counter, silt past a declared bound, planned
otherwise. -/
def settleWaitc (s : State) (u since : Nat) (c : Core) (op : SlotOp) : State :=
  let ctr := bits op.w 55 50
  let t := waitcTarget c op.w
  match c.plc with
  | none => s
  | some p =>
    match intakeOf s p.val u ctr with
    | some i => acceptRows (addIdle s p.val (kCycles c.profile (c.cycle - since))) p.val u i t
    | none => settleDues s u ctr since t

/-- The credit stall of a path that a substitution has shortened past its slack, with no room in its queue, is silt at its destination, once
(R81). -/
def settleTight (s : State) (u since : Nat) (op : SlotOp) : State :=
  let c := getCore s u
  match (if op.opc = 0x8D then portSeg s u (bits op.w 55 53) else none) with
  | some g =>
    if g.tight ∧ since < c.cycle then
      let s := modSeg s g.plc.val g.id fun g => { g with tight := false }
      addSlip s g.plc.val (some (segEnds g).2) (regionOf (segEnds g).2) (kCycles c.profile (c.cycle - since))
    else s
  | none => s

/-- The cycles of a bundle that issues, reached at cycle `since`: its WAITC, or the stall on an inbound DMA with a bound (R68). -/
def settleIssue (s : State) (u since : Nat) (due : Option Nat) (ops : List SlotOp) : State :=
  let c := getCore s u
  let s := match ops.find? (·.opc == 0x88) with
    | some op => settleWaitc s u since c op
    | none => s
  let s := ops.foldl (fun s op => settleTight s u since op) s
  match due with
  | some d => slipPast s u (kAt c c.cycle) d (kAt c since) 0
  | none => s

/-! ## Stalls (R107, R135, R137, R138, R160) -/

/-- Whether two row sets meet; the second is a run. -/
def rowsMeet (r : RowSet) (b n : Nat) : Bool := (upFrom 0 r.n).any fun i => decide (b ≤ r.base + i * r.stride ∧ r.base + i * r.stride < b + n)

/-- Whether a slot's reads meet a local row write that is outstanding: a store not yet visible, a row of a DRAIN, or an
inbound DMA that has not written its last row. -/
def scoreboard (c : Core) (op : SlotOp) : Bool :=
  (readRows c op.opc op.w).any fun r =>
    (c.pend.any fun p => match p.dest with | .row x => RowsHave r x | _ => false)
      || c.drainOut.any (RowsHave r ·) || c.dmaIn.any fun d => rowsMeet r d.base d.n

/-- Whether SPUSH finds fewer credits than rows at its port (R135). -/
def lacksCredits (s : State) (u : Nat) (op : SlotOp) : Bool :=
  op.opc == 0x8D && (match portSeg s u (bits op.w 55 53) with
    | some g => decide (g.credits < bits op.w 30 26 + 1)
    | none => false)

/-- Whether a slot stalls its bundle. -/
def stalls (s : State) (u : Nat) (c : Core) (op : SlotOp) : Bool :=
  scoreboard c op || lacksCredits s u op || queueFull (getM s u) op.opc

/-- The last scheduled K-cycle of the inbound DMAs that hold a bundle up (R141). -/
def stallDue (c : Core) (ops : List SlotOp) : Option Nat :=
  ((c.dmaIn.filter fun d => ops.any fun op => (readRows c op.opc op.w).any fun r => rowsMeet r d.base d.n).filterMap (·.due)).max?

/-! ## Effects -/

/-- What one slot does when its bundle issues, with the operands of the issue cycle (R104). -/
def slotEffect (s : State) (u : Nat) (c : Core) (op : SlotOp) : State :=
  match opcClass op.opc with
  | 1 => intEffect s u c op
  | 2 => rowEffect s u c op
  | 3 =>
    if op.opc = 0x85 then addResult s u op.slot c.cycle 1 (.gpr (bits op.w 54 49)) (c.pc + 1) 0 0
    else if op.opc = 0x88 then waitcEffect s u c op
    else if op.opc = 0x8A then sendEffect s u c op
    else if op.opc = 0x8B then msgEffect s u c op
    else if op.opc = 0x8C then dmaEffect s u c op
    else if op.opc = 0x8D then spushEffect s u c op
    else if op.opc = 0x8E then sigchkEffect s u c op
    else s
  | 4 => valuEffect s u c op
  | 5 => vmoveEffect s u c op
  | 6 => reduceEffect s u c op
  | 7 => convertEffect s u c op
  | 0 => s
  | _ => matrixEffect s u c op

/-- The sequence after a bundle (R119 to R122, R128, R129, R168). -/
def advance (s : State) (u : Nat) (c : Core) (ops : List SlotOp) : State :=
  let fl := match ops.find? fun op => 0x80 ≤ op.opc ∧ op.opc ≤ 0x86 with
    | some op => branchOf c op
    | none => { target := none, late := false, pois := false }
  let halt := ops.any (·.opc == 0x8F)
  let sig := if ops.any (·.opc == 0x8E) then 0 else sigUpdate c.sig c.pc
  let s := modCore s u fun x =>
    let x := { x with sig := sig, cycle := c.cycle + 1 + (if fl.late then mispredict c.profile else 0),
                      pstate := x.pstate || fl.pois, held := none, forming := [] }
    if halt then closeChannels { x with run := if x.run = .running then .halted else x.run, pc := c.pc + 1 }
    else { x with pc := fl.target.getD (c.pc + 1) }
  if !halt && fl.target.isNone && c.pc + 1 == bundleCount c.profile then
    programFault (modCore s u fun x => { x with pc := c.pc }) u 0 [(0, 5, 0)] c.pc c.cycle
  else s

/-! ## A bundle -/

/-- The first uncorrectable codeword of the bundle at an address (R234, R914), and the counter after its decoding. -/
def istoreUe (c : Core) (free k : Nat) : Nat → Option Nat × Nat
  | 0 => (none, free)
  | n + 1 =>
    let e := tget 0 c.istoreErrs (c.pc * 4 + k)
    if e < 2 then istoreUe c free (k + 1) n
    else if e = 2 ∨ (Config.swcOutcome e free).val < 2 then (some k, free + 1)
    else istoreUe c (free + 1) (k + 1) n

/-- An uncorrectable bundle does not issue, and the core halts (R165, R914). -/
def istoreFault (s : State) (u k : Nat) : State :=
  let c := getCore s u
  let s := detectorFault s u 0x21 0 c.pc c.cycle (fields [(k, 48), (c.pc, 16), (syndromeOf s.free, 0)])
  modCore s u fun c => { c with run := .halted, held := none, forming := [] }

/-- Whether a WAITC whose rows are there still waits: for the scheduled cycle of rows with a declared bound (R67), or for the cycle in
which the input stage accepts its samples (R60). -/
def waitsOn (s : State) (u : Nat) (c : Core) (op : SlotOp) : Bool :=
  op.opc == 0x88 &&
    (match c.plc with
     | none => false
     | some p =>
       match intakeOf s p.val u (bits op.w 55 50) with
       | some i => acceptWaits s p.val u i (waitcTarget c op.w)
       | none => early c (bits op.w 55 50) (waitcTarget c op.w))

/-- Whether a bundle's wait still holds it up: a well-formed WAITC or WAITS whose condition is false (R123, R124), or whose cycle has
not come. -/
def waiting (s : State) (u : Nat) (c : Core) (ops : List SlotOp) : Bool :=
  ops.any fun op => (op.opc == 0x88 || op.opc == 0x89) && slotClass c.profile op.slot == 3
    && !faultReserved c op.opc op.w && !faultOperand c none op.opc op.w && (!waitHolds s u c op || waitsOn s u c op)

/-- The program faults that a bundle raises at its issue (R163, R164): none while its wait holds it up; a WAITC's snapshot comes first
(R260). -/
def issueFaults (s : State) (u : Nat) (c : Core) (ops : List SlotOp) : List (Nat × Nat × Nat) :=
  if waiting s u c ops then []
  else
    bundleFaults (match ops.find? (·.opc == 0x88) with
      | some op => strictSnapshot c (bits op.w 55 50)
      | none => c) (getM s u) ops

/-- The opcode in a slot of a bundle. -/
def opcAt (ops : List SlotOp) (slot : Nat) : Nat := (ops.find? (·.slot == slot)).elim 0 (·.opc)

/-- Issue of a bundle at the core's cycle, reached at cycle `since`, after a stall on rows that were due at `due`: an uncorrectable bundle,
a wait, a program fault and a stall come before any slot's effect (R96, R107, R123, R164). -/
def issueSince (s : State) (u since : Nat) (due : Option Nat) (ops : List SlotOp) : State :=
  let s := settleCore s u
  let c := getCore s u
  let (ue, fr) := istoreUe c s.free 0 (if c.profile = .s then 2 else 4)
  let s := { s with free := fr }
  let hold := fun (isWait : Bool) (d : Option Nat) =>
    setCore s u { c with held := some { ops := ops, isWait := isWait, since := since, tested := c.cycle, due := d }, forming := [] }
  match ue with
  | some k => istoreFault s u k
  | none =>
    if waiting s u c ops then hold true none
    else
      match issueFaults s u c ops with
      | f :: fs => programFault s u (opcAt ops f.1) (f :: fs) c.pc c.cycle
      | [] =>
        if ops.any (stalls s u c) then hold false ((stallDue c ops).orElse fun _ => due)
        else
          let s := settleIssue s u since due ops
          let c := getCore s u
          advance (ops.foldl (fun s op => slotEffect s u c op) s) u c ops

/-- Issue of a bundle that the core reaches in this cycle. -/
def issueBundle (s : State) (u : Nat) (ops : List SlotOp) : State := issueSince s u (getCore s u).cycle none ops

/-- Slots in order; a later word for the same slot takes its place. -/
def addSlot (op : SlotOp) : List SlotOp → List SlotOp
  | [] => [op]
  | x :: t => if x.slot = op.slot then op :: t else if op.slot < x.slot then op :: x :: t else x :: addSlot op t

/-- Whether a core can issue a bundle: clocked and running, and none held (R3, R96, R107). -/
def canIssue (s : State) (u : Nat) : Bool :=
  !s.clk.gated && isCoreKind (kindOf s u) && (getCore s u).run == .running && (getCore s u).held.isNone

/-- A slot command: its slot joins the bundle that forms, which issues with the last of them. -/
def stage (s : State) (a : Issue) (opc w : Nat) : State :=
  let u := a.u.val
  if canIssue s u then
    let ops := addSlot { slot := a.slot.toNat, opc := opc, w := w, upset := a.upset } (getCore s u).forming
    if a.more then modCore s u fun c => { c with forming := ops } else issueBundle s u ops
  else s

/-- The descriptor that a control slot's word names, as its bundle would read it (R105). -/
def descWord (s : State) (a : Issue) (w odd : Nat) : PVal := rg (getCore (settleCore s a.u.val) a.u.val) (bits w 55 50 + odd)

/-- A MSG command of one operation of R405; another operation in the descriptor is another command's. -/
def stageMsg (s : State) (a : Issue) (w : Nat) (this : Nat → Bool) : State :=
  if this (bits (descWord s a w 0).v.toNat 63 61) then stage s a 0x8B w else s

/-- A DMA command of one direction of R131. -/
def stageDma (s : State) (a : Issue) (w : Nat) (outward : Bool) : State :=
  if bit (descWord s a w 0).v.toNat 48 = outward then stage s a 0x8C w else s

/-! ## Held bundles -/

/-- Whether a held bundle would still be held at a cycle. -/
def stillHeld (s : State) (u : Nat) (h : Held) : Bool :=
  let c := getCore s u
  waiting s u c h.ops || (!h.isWait && h.ops.any (stalls s u c))

/-- A held bundle is tried again at a cycle later than any at which it was found to be held (R125): if what held it is over, the cycles
are accounted and it issues. -/
def release (s : State) (u cycle : Nat) (isWait : Bool) : State :=
  match (getCore s u).held with
  | none => s
  | some h =>
    if h.isWait ≠ isWait ∨ cycle < (getCore s u).cycle ∨ cycle ≤ h.tested ∨ (getCore s u).run ≠ .running then s
    else
      let s' := settleCore (modCore s u fun c => { c with cycle := cycle }) u
      if stillHeld s' u h then modCore s' u fun c => { c with held := some { h with tested := cycle } }
      else issueSince (modCore s' u fun c => { c with held := none }) u h.since h.due h.ops

/-- A program fault of the bundle that the instruction store holds at the core's address, as its issue meets it (R163, R164). -/
def storedFault (s : State) (u : Nat) : State :=
  if canIssue s u then
    let s' := settleCore s u
    let c := getCore s' u
    let ops := decodeBundle c.profile (tget 0 c.istore c.pc).toNat
    match issueFaults s' u c ops with
    | [] => s
    | f :: fs => programFault s' u (opcAt ops f.1) (f :: fs) c.pc c.cycle
  else s

end Sys2Proof.Machine
end

