-- ==== Sys2Proof/Machine/Streams.lean ====
section
/-! DEFINITION. Streams and steering (R279 to R310) and the drain of a placement (R314 to R323). -/

namespace Sys2Proof.Machine

/-! ## Segments and queues -/

/-- STREAM_UE is charged to the source site of its segment (R308, R309). -/
def streamUe (s : State) (g : Seg) : State := raiseAt s (sourceSite g) 0x32 (fields [(g.plc.val, 28), (g.id, 15)]) 13 0

/-- An arrival counter with n more (R244, R245). -/
def bumpCounter (s : State) (u i n : Nat) : State :=
  modCore s u fun c => { c with counters := tmod 0 c.counters i fun x => x + BitVec.ofNat 32 n }

/-- Whether a placement is in a fault drain, so that rows travel on with the poison mark (R321). -/
def marking (s : State) (p : Nat) : Bool := match (getPlc s p).drain with | some d => d.fault | none => false

/-- The row at the front of a segment, as it is written where it lands: decoded (R227, R913), and poisoned whole with an uncorrectable
beat (R309) or in a fault drain (R321); and the decoding. -/
def landing (s : State) (g : Seg) (r : SRow) (errs : List (Fin 32 × Nat)) : SRow × RowRead :=
  let rd := decodeRow r.data r.poison errs s.free
  ({ r with data := BitVec.ofNat 4096 rd.data, stamp := s.clk.master,
            poison := if rd.ue.isSome || marking s g.plc.val then BitVec.allOnes 32 else BitVec.ofNat 32 rd.pois }, rd)

/-- A row leaves the links, and its source's engine may go on (R291). -/
def takeRow (s : State) (g : Seg) (free : Nat) : State :=
  let s := modSeg { s with free := free } g.plc.val g.id segPop
  match g.src with
  | .port u _ => pump s u.val
  | .slot _ _ => s

/-- A row written into an input ring and counted (R245, R292); the stage takes over the lag of its input (R74). -/
def ringWrite (s : State) (u port : Nat) (r : SRow) : State :=
  match tfind (getCore s u).inRings port with
  | none => s
  | some g =>
    let s := inboundRow s u (g.base + g.next) r.data.toNat (r.poison != 0)
    let g := { g with next := (g.next + 1) % g.n, counts := g.counts ++ [rcnt (getCore s u) g.counter + 1] }
    bumpCounter (modCore s u fun c =>
      { c with inRings := tput c.inRings port g, asked := tmod 0 c.asked g.counter (· + 1), lag := max c.lag r.lag }) u g.counter 1

/-- A row written into a data queue (R294). -/
def queueWrite (s : State) (c q : Nat) (r : SRow) : State :=
  let w := getSw s c
  match tfind w.dq q with
  | none => s
  | some d => setSw s c { w with dq := tput w.dq q { d with rows := d.rows ++ [r] } }

/-- A row whose fourth beat has arrived is written into its ring or data queue. -/
def streamRowWrite (s : State) (p seg : Nat) (errs : List (Fin 32 × Nat)) : State :=
  match findSeg s p seg with
  | none => s
  | some g =>
    match segHead g, g.dst with
    | some r, .ring u port _ _ _ =>
      let (r, rd) := landing s g r errs
      let s := ringWrite (takeRow s g rd.free) u.val port.toNat r
      progress (if rd.ue.isSome then streamUe s g else s) p
    | some r, .data c q =>
      let (r, rd) := landing s g r errs
      let s := queueWrite (takeRow s g rd.free) c.val q.toNat r
      progress (if rd.ue.isSome then streamUe s g else s) p
    | _, _ => s

/-- The tokens of a token row (R304): none where the count is 0 or above 255. -/
def tokensOf (d : Row) : Option (List (BitVec 16)) :=
  let n := bits d.toNat 15 0
  if n = 0 ∨ 255 < n then none
  else some ((upFrom 0 n).map fun i => BitVec.ofNat 16 (d.toNat >>> (16 * (i + 1))))

/-- A token row arrives in a token queue, with its mark (R309), and its count is checked. -/
def tokenRowWrite (s : State) (p seg : Nat) (errs : List (Fin 32 × Nat)) : State :=
  match findSeg s p seg with
  | none => s
  | some g =>
    match segHead g, g.dst with
    | some r, .token c q =>
      let (r, rd) := landing s g r errs
      let s := progress (takeRow s g rd.free) p
      let s := if rd.ue.isSome then streamUe s g else s
      match tokensOf r.data with
      | none => placementFault s p (switchSite c.val) 0x31 13 0
      | some l =>
        let w := getSw s c.val
        match tfind w.tq q.toNat with
        | none => s
        | some t => setSw s c.val { w with tq := tput w.tq q.toNat { t with rows := t.rows ++ [{ stamp := r.stamp, tokens := l, poison := r.poison != 0, lag := r.lag }] } }
    | _, _ => s

/-- One entry of a credit beat (R297): credits that the queue owes come back to the segment's source. -/
def creditEntry (s : State) (e : Nat) : State :=
  if bit e 31 then
    modSeg s (bits e 30 28) (bits e 27 15) fun g =>
      let n := min (bits e 5 0 + 1) g.owed
      { g with credits := g.credits + n, owed := g.owed - n }
  else s

/-- A credit beat at the source of segment `seg`; one with an uncorrectable codeword delivers none of its entries, and is charged to the
source of the first segment that it still names, or of this one (R308, R309). -/
def creditBeat (s : State) (p seg b : Nat) (errs : List (Fin 32 × Nat)) : State :=
  let rd := decodeRow (BitVec.ofNat 4096 b) 0 errs s.free
  let s := { s with free := rd.free }
  let es := (upFrom 0 32).map fun i => bits rd.data (32 * i + 31) (32 * i)
  if rd.ue.isSome ∨ rd.pois ≠ 0 then
    match (es.filterMap fun e => if bit e 31 then findSeg s (bits e 30 28) (bits e 27 15) else none).head?.orElse fun _ => findSeg s p seg with
    | some g => streamUe s g
    | none => s
  else es.foldl creditEntry s

/-! ## Elements (R300 to R307) -/

def elKind (d : Nat) : Nat := bits d 63 60
def elWays (d : Nat) : Nat := bits d 59 58 + 1
def elIn (d i : Nat) : Nat := bits d (43 + 4 * i) (40 + 4 * i)
def elOut (d i : Nat) : Nat := bits d (27 + 4 * i) (24 + 4 * i)
def elTok (d : Nat) : Nat := bits d 23 21

/-- The row at the front of a data queue. -/
def headRow (w : Switch) (q : Nat) : Option SRow := match tfind w.dq q with | some d => d.rows.head? | none => none

/-- Taking the front row of a data queue: its credit is owed to the segment's source (R296). -/
def popRow (s : State) (c q : Nat) : State :=
  let w := getSw s c
  match tfind w.dq q with
  | some d => modSeg (setSw s c { w with dq := tput w.dq q { d with rows := d.rows.drop 1 } }) d.plc.val d.seg
      fun g => { g with owed := g.owed + 1 }
  | none => s

/-- The segment of an output slot, and its credits. -/
def outSeg (s : State) (c o : Nat) : Option Seg :=
  match tfind (getSw s c).out o with
  | some (p, id) => findSeg s p.val id
  | none => none
def outCredits (s : State) (c o : Nat) : Nat := match outSeg s c o with | some g => g.credits | none => 0

/-- Sending a row on an output slot takes one credit. -/
def sendRow (s : State) (c o : Nat) (r : SRow) : State :=
  match tfind (getSw s c).out o with
  | some (p, id) => progress (modSeg s p.val id fun g =>
      { g with credits := g.credits - 1, transit := g.transit ++ [{ r with stamp := 0 }] }) p.val
  | none => s

/-- R301, R302. -/
def forkFire (s : State) (c e : Nat) : State :=
  match tfind (getSw s c).el e with
  | none => s
  | some x =>
    let d := x.desc.toNat
    let outs := (upFrom 0 (elWays d)).map (elOut d)
    match headRow (getSw s c) (elIn d 0) with
    | some r =>
      if elKind d = 1 ∧ outs.all fun o => decide (0 < outCredits s c o) then
        popRow (outs.foldl (fun s o => sendRow s c o r) s) c (elIn d 0)
      else s
    | none => s

/-- R301. -/
def joinFire (s : State) (c e : Nat) : State :=
  match tfind (getSw s c).el e with
  | none => s
  | some x =>
    let d := x.desc.toNat
    let ins := (upFrom 0 (elWays d)).map (elIn d)
    let rows := ins.filterMap (headRow (getSw s c))
    if elKind d = 2 ∧ rows.length = elWays d ∧ elWays d ≤ outCredits s c (elOut d 0) then
      ins.foldl (fun s q => popRow s c q) (rows.foldl (fun s r => sendRow s c (elOut d 0) r) s)
    else s

/-- Taking the head token; the last of a row returns the row's credit (R296). -/
def popToken (s : State) (c q : Nat) : State :=
  let w := getSw s c
  match tfind w.tq q with
  | some t =>
    match t.rows with
    | r :: rest =>
      if 1 < r.tokens.length then setSw s c { w with tq := tput w.tq q { t with rows := { r with tokens := r.tokens.drop 1 } :: rest } }
      else
      modSeg (setSw s c { w with tq := tput w.tq q { t with rows := rest } }) t.plc.val t.seg fun g => { g with owed := g.owed + 1 }
    | [] => s
  | none => s

/-- LAPTAG is charged to the source of the token's segment (R309). -/
def lapTag (s : State) (c e : Nat) (x : Element) (tok : Nat) : State :=
  let g := match tfind (getSw s c).tq (elTok x.desc.toNat) with | some t => findSeg s t.plc.val t.seg | none => none
  let u := match g with | some g => sourceSite g | none => switchSite c
  raiseAt s u 0x30 (fields [(c, 40), (e, 32), (tok, 8), (x.lap.toNat, 0)]) 13 0

/-- A row that a token steers: a poisoned token poisons it (assumption 81), and it runs as late as the later of the two (R74). -/
def steered (r : SRow) (t : TRow) : SRow :=
  { r with poison := if t.poison then BitVec.allOnes 32 else r.poison, lag := max r.lag t.lag }

/-- fire_steered (R307). -/
def fireSteered (s : State) (c e : Nat) : State :=
  let w := getSw s c
  match tfind w.el e with
  | none => s
  | some x =>
    let d := x.desc.toNat
    if elKind d ≠ 3 ∧ elKind d ≠ 4 then s
    else
      match (tfind w.tq (elTok d)).bind fun t => t.rows.head?.bind fun r => r.tokens.head?.map fun k => (r, k) with
      | none => s
      | some (trow, tok) =>
        let sel := bits tok.toNat 3 0
        if elWays d ≤ sel then placementFault s x.plc.val (switchSite c) 0x31 13 0
        else
          let src := if elKind d = 3 then elIn d 0 else elIn d sel
          let dst := if elKind d = 3 then elOut d sel else elOut d 0
          match headRow w src with
          | none => s
          | some r =>
            if outCredits s c dst = 0 then s
            else if bits tok.toNat 15 8 ≠ x.lap.toNat then lapTag s c e x tok.toNat
            else
              let s := popToken (popRow (sendRow s c dst (steered r trow)) c src) c (elTok d)
              let w := getSw s c
              progress (setSw s c { w with el := tput w.el e { x with lap := x.lap + 1 } }) x.plc.val

/-! ## Drain (R319 to R323) -/

/-- The stop of a fault drain (R319 to R322), whose fault was detected at `d0`: gates shut, every unit in the poison state, queues and
send buffers marked, hall passes and channels paused. -/
def startFaultDrain (s : State) (p : Nat) (d0 : Tick) : State :=
  if marking s p then s
  else
    let x := getPlc s p
    let mine := fun (q : Plc) => q.val == p
    let poison := fun (r : SRow) => { r with poison := BitVec.allOnes 32 }
    let s := modCores s p fun c => { c with pstate := true }
    let s := { s with
      segs := s.segs.map fun g => if mine g.plc then { g with buf := g.buf.map poison, transit := g.transit.map poison } else g,
      switches := tmap switch0 (fun _ w => { w with
        dq := w.dq.map fun e => (e.1, if mine e.2.plc then { e.2 with rows := e.2.rows.map poison } else e.2),
        tq := w.tq.map fun e => (e.1, if mine e.2.plc then { e.2 with rows := e.2.rows.map fun r => { r with poison := true } } else e.2) })
        s.switches }
    let s := pauseDoors s p true
    let fill := match x.img with | some im => im.report.fill | none => 0
    modPlc s p fun x => { x with gatesShut := true,
                                 drain := some { fault := true, start := d0, limit := fill + lagOf s p + 1024,
                                                 unload := match x.drain with | some d => d.unload | none => false } }

/-- A context drain stops the inputs alone (R321). -/
def startContextDrain (s : State) (p : Nat) (unload : Bool) : State :=
  modPlc s p fun x => { x with drain := some { fault := false, start := s.clk.master, limit := 0, unload := unload } }

/-- quiet(p) of R321: no beat in flight, and every queue and send buffer empty. -/
def quiet (s : State) (p : Nat) : Bool :=
  (s.segs.all fun g => g.plc.val != p || (g.transit.isEmpty && g.buf.isEmpty))
    && (s.switches.all fun e => (e.2.dq.all fun d => d.2.plc.val != p || d.2.rows.isEmpty)
        && e.2.tq.all fun t => t.2.plc.val != p || t.2.rows.isEmpty)
    && (coresOf s p).all fun u => (getEp s u).outq.all fun r => r.port.isNone

/-- gates_decided(p) of R321. -/
def gatesDecided (s : State) (p : Nat) : Bool := (getDescs s p).all fun d => !descLive d

def anyHalted (s : State) (p : Nat) : Bool := (coresOf s p).any fun u => (getCore s u).run == .halted

/-- The end of a drain (R321): cores stopped; in a fault drain, contents discarded and credits reset; lags cleared. -/
def finishDrain (s : State) (p : Nat) (fault : Bool) : State :=
  let s := stopCores s p
  let s := if fault then discardStreams s p else s
  let s := modCores s p fun c => { c with lag := 0 }
  postCounters (modPlc s p fun x => { x with drain := none, left := if fault then accepted x else x.left, watchdog := 0 }) p

/-- Whether a drain ends by itself. -/
def drainDone (s : State) (p : Nat) (d : DrainSt) : Bool :=
  inFlight (getPlc s p) == 0 && quiet s p && (d.fault || gatesDecided s p)

/-- Whether a fault drain is forced to stop (R321, R322): its limit is in the present T tick or past, or a core halted. -/
def drainForced (s : State) (p : Nat) (d : DrainSt) : Bool :=
  d.fault && (decide (d.limit < ((s.clk.master - d.start).toNat + 1) * 16) || anyHalted s p)

/-! ## The no-progress watchdog (R314 to R317) -/

/-- Whether a held bundle waits as R317 counts it. -/
def heldWaits (s : State) (u : Nat) (h : Held) : Bool :=
  h.isWait || h.ops.any fun op => lacksCredits s u op || queueFull (getM s u) op.opc

/-- The site that NOPROGRESS names (R317). -/
def noProgressSite (s : State) (p : Nat) : Nat :=
  let queued := s.switches.flatMap fun e =>
    (e.2.dq.filterMap fun d => if d.2.plc.val = p then d.2.rows.head?.map fun r => (r.stamp.toNat, switchSite e.1) else none)
    ++ (e.2.tq.filterMap fun t => if t.2.plc.val = p then t.2.rows.head?.map fun r => (r.stamp.toNat, switchSite e.1) else none)
  match leastKey queued with
  | some u => u
  | none =>
    let waits := (coresOf s p).filterMap fun u =>
      match (getCore s u).held with
      | some h => if heldWaits s u h then
          some (((getCore s u).startTick.toNat * 16 + kCycles (getCore s u).profile h.since) * 16384 + idOfSite s u, u) else none
      | none => none
    match leastKey waits with
    | some u => u
    | none =>
      let ins := match (getPlc s p).img with
        | some (im : Image) => (im.units.filter fun (i : ImgUnit) => i.isInput).filterMap fun (i : ImgUnit) =>
            (coresOf s p).find? fun u => (getCore s u).logical == some i.logical
        | none => []
      (leastKey (ins.map fun i => (idOfSite s i, i))).getD 0

/-- Whether the watchdog of a placement counts (R315). -/
def watchdogCounts (s : State) (p : Nat) : Bool :=
  let x := getPlc s p
  inFlight x != 0 && !x.held && !(coresOf s p).any fun u =>
    let c := getCore s u
    match c.held with
    | some h => h.isWait && h.ops.any fun op => op.opc == 0x88 && c.passes.any fun q => q.counter.toNat == bits op.w 55 50
    | none => false

/-! ## Commands -/

/-- R292: A row whose fourth beat has arrived is written into its input ring or queue and counted. -/
def execStreamRowWrite (p : Plc) (seg : Fin 8192) (errs : List (Fin 32 × Nat)) (s : State) : Answer :=
  .next (clocked s (streamRowWrite s p.val seg.val errs))

/-- R304: A token row arrives in a token queue and its count is checked. -/
def execTokenRowWrite (p : Plc) (seg : Fin 8192) (errs : List (Fin 32 × Nat)) (s : State) : Answer :=
  .next (clocked s (tokenRowWrite s p.val seg.val errs))

/-- R297: A credit beat delivers its credit entries to the bound source ports and slots. -/
def execCreditBeat (g : SegName) (b : CreditBits) (s : State) : Answer :=
  .next (clocked s (creditBeat s g.plc.val g.seg.val b.entries.toNat b.errs))

/-- R302: A fork sends its input row on every output once all outputs hold credit. -/
def execForkFire (c : Cluster) (e : BitVec 3) (s : State) : Answer := .next (clocked s (forkFire s c.val e.toNat))

/-- R301: A join sends one row from each input as consecutive rows on its output. -/
def execJoinFire (c : Cluster) (e : BitVec 3) (s : State) : Answer := .next (clocked s (joinFire s c.val e.toNat))

/-- R307: A switch or merge pairs its head token with a row, checks the lap tag and sends the row. -/
def execFireSteered (c : Cluster) (e : BitVec 3) (s : State) : Answer := .next (clocked s (fireSteered s c.val e.toNat))

end Sys2Proof.Machine
end

