-- ==== Sys2Proof/Machine/Hbm.lean ====
section
/-! DEFINITION. HBM port tiles (R443 to R478, R924, R928), the scrubs (R239 to R242, R456), refresh (R457), loam rows (R480,
R925) and export (R486 to R490). -/

namespace Sys2Proof.Machine

/-! ## Slices and rows (R446 to R449) -/

/-- Rows of a slice by memory grade, and of its image area. -/
def sliceRows (s : State) : Nat := s.fuses.memGrade * 2 ^ 17
def imageRows : Nat := 65536
/-- Rows of a slice that programs reach. -/
def programRows (s : State) : Nat := sliceRows s - imageRows
/-- The stack row address (bits 35:9) of row r of a tile's slice. -/
def sliceRow (t r : Nat) : Nat := t % 16 * 2 ^ 23 + r
/-- The tile of a stack that serves a row address, and the row in its slice. -/
def rowTile (stack row : Nat) : Nat := stack * 16 + row / 2 ^ 23
def rowInSlice (row : Nat) : Nat := row % 2 ^ 23

/-! ## Loam (R480, R925) -/

/-- The tiles of a mask, rising. -/
def maskTiles (m : BitVec 16) : List Nat := onesFrom m.toNat 0 16

/-- The stack row of row r of a loam copy (R480). -/
def loamRow (s : State) (off : Nat) (mask : BitVec 16) (r : Nat) : Nat :=
  let l := maskTiles mask
  (l[r % l.length]?).getD 0 * 2 ^ 23 + programRows s + off + r / l.length

/-- Whether a stack row belongs to a loam block of a resident placement (R474, R925). -/
def isLoam (s : State) (stack row : Nat) : Bool :=
  s.plcs.any fun e => e.2.protects && match e.2.img with
    | some im => im.loam.any fun (b : LoamEntry) =>
        (b.stackA.val == stack && (upFrom 0 b.rows).any fun r => loamRow s b.offA b.maskA r == row)
        || (b.stackB.val == stack && (upFrom 0 b.rows).any fun r => loamRow s b.offB b.maskB r == row)
    | none => false

/-! ## Reads (R451 to R455) -/

/-- A tile counts corrected words of one of its two channels, which address bit 9 selects (R446, R451). -/
def countHbm (s : State) (t row n : Nat) : State :=
  if n = 0 then s else
  let old := tget 0 (getTile s t).corr (row % 2)
  let s := modTile s t fun x => { x with corr := tmod 0 x.corr (row % 2) (sat32 · n) }
  addPoints s (tileSite t) ((sat32 old n).toNat / 4096 - old.toNat / 4096) (some 1)

/-- A row becomes damaged (R454): a 65th entry fences the tile. -/
def damage (s : State) (t row : Nat) : State :=
  let x := getTile s t
  if setHas x.damaged row then s
  else if 64 ≤ x.damaged.length then decideFence s (tileSite t) (some 0x0C)
  else setTile s t { x with damaged := setAdd x.damaged row }

/-- The operation class of a port tile's read by the type of the request that it serves, 0 for none (R784). -/
def reqClass (req : Nat) : Nat := if req = 0 then 0 else 15

/-- The event and the entry for a damaged row outside loam (R455, R456, R575, R785). -/
def damagedEvent (s : State) (t row req : Nat) (scrub : Bool) : State :=
  let s := if isLoam s (t / 16) row then s
    else postEvent s 0x03 0xFF [BitVec.ofNat 64 (fields [(t / 16, 8), (t % 16, 0)]), BitVec.ofNat 64 (row * 512),
      BitVec.ofNat 64 (ofBool scrub)]
  postEntry s { kind := 0x0C, code := if scrub then 0 else 0x3C, stamp := BitVec.ofNat 64 (timeAt s (tileSite t)),
                unit := some (tileSite t), cls := reqClass req, opc := req, syn := BitVec.ofNat 64 (row * 512) }

/-- A port tile reads a row of its stack (R452 to R454): an uncorrectable word is read once more; still uncorrectable, the
row is delivered poisoned, becomes damaged and raises HBM_UE, as every read of a damaged row does. `req` is the request's type. -/
def tileRead (s : State) (t row req : Nat) : State × RowRead :=
  let a := hbmAddr (t / 16) row
  let u := tileSite t
  if setHas (getTile s t).damaged row then
    -- the pins are not accessed: what the poisoned codewords hold is open
    let data := (upFrom s.free 32).foldr (fun k acc => (Config.damagedData k).toNat + acc * 2 ^ 128) 0
    let s := { s with free := s.free + 32 }
    (raiseAt s u 0x3C (row * 512) (reqClass req) req, { data := data, pois := 2 ^ 32 - 1, corr := 0, ue := none, free := s.free })
  else
    let rd := storeRead s.hbm a s.free
    let s := countHbm { s with free := rd.free } t row rd.corr
    match rd.ue with
    | none => (s, rd)
    | some _ =>
      -- only the uncorrectable words are read once more, so only they can add to the count
      let one := rd.corr
      let rd := storeRead s.hbm a s.free
      let s := countHbm { s with free := rd.free } t row (rd.corr - one)
      match rd.ue with
      | none => (s, rd)
      | some _ => (raiseAt (damagedEvent (damage s t row) t row req false) u 0x3C (row * 512) (reqClass req) req, rd)

/-- A write of a whole row, which clears its damage (R454). -/
def tileWrite (s : State) (t row data : Nat) (pois : Bool) : State :=
  let s := hbmWrite s (t / 16) row data pois
  let x := getTile s t
  if setHas x.damaged row then
    setTile { s with rcv := { s.rcv with ueRows := setDel s.rcv.ueRows (hbmAddr (t / 16) row) } } t
      { x with damaged := setDel x.damaged row }
  else s

/-- n rows as packets carry them. -/
def tileReads (s : State) (t row : Nat) : Nat → State × List PRow
  | 0 => (s, [])
  | n + 1 =>
    let (s, rd) := tileRead s t row 3
    let (s, l) := tileReads s t (row + 1) n
    (s, { data := BitVec.ofNat 4096 rd.data, poison := BitVec.ofNat 32 rd.pois } :: l)

/-- NAK_HBM_ADDR (R449, R474): a range outside the tile's slice, or a program's range in the image area. -/
def badRange (s : State) (t row n : Nat) (program : Bool) : Bool :=
  row / 2 ^ 23 != t % 16 || decide ((if program then programRows s else sliceRows s) < rowInSlice row + n)

/-! ## Gather (R470 to R478, R912, R928) -/

/-- Rounding a value to FP32 (R477, R478). -/
def round32 (v : Fp) : Fp := fpDecode fmtFp32 (fpRound fmtFp32 v).1

/-- value(e, k): element k of an entry's bytes, exact in FP32 (R477, R912). -/
def entryValue (fmt e k : Nat) : Fp :=
  match fmt with
  | 0 => let z := sx 8 (bits e (32 + 8 * k + 7) (32 + 8 * k))
         round32 (fpMul (.fin (decide (z < 0)) z.natAbs 0) (fpDecode fmtFp16 (bits e 15 0))).1
  | 1 => let z := sx 4 (bits e (32 + 4 * k + 3) (32 + 4 * k))
         round32 (fpMul (.fin (decide (z < 0)) z.natAbs 0) (fpDecode fmtFp16 (bits e 15 0))).1
  | 2 => round32 (fpDecode fmtE4M3 (elemAt e 8 k))
  | 3 => round32 (fpDecode fmtE5M2 (elemAt e 8 k))
  | 4 => round32 (fpDecode fmtFp16 (elemAt e 16 k))
  | _ => round32 (fpDecode fmtBf16 (elemAt e 16 k))

/-- a / n, correctly rounded to FP32: the quotient of 64 further bits carries a sticky bit. -/
def divCount (a : Fp) (n : Nat) : Fp :=
  match a with
  | .fin neg m e =>
    let q := (m <<< 64) / n
    round32 (.fin neg (2 * q + if (m <<< 64) % n = 0 then 0 else 1) (e - 65))
  | v => v

/-- pool of R477 over values with their weights. -/
def poolElem (pool : Nat) (vs : List (Fp × Fp)) : Fp :=
  match vs with
  | [] => .fin false 0 0
  | (v, w) :: t =>
    let a := if pool = 3 then round32 (fpMul w v).1 else v
    let a := t.foldl (fun a x =>
      if pool = 4 then (fpMaxMin true a x.1).1
      else if pool = 3 then round32 (fpFma x.2 x.1 a).1
      else round32 (fpAdd a x.1).1) a
    if pool = 2 then divCount a vs.length else a

/-- The bits of an output element (R207, R478). -/
def outElem (fmt : Nat) (v : Fp) : Nat :=
  (cvtOut (.flt (match fmt with | 0 => fmtFp32 | 1 => fmtBf16 | _ => fmtFp16)) v).1

/-- A gathered entry: its bytes and whether it is poisoned (R463, R471, R928). -/
def gatherEntry (s : State) (t w0 i : Nat) : State × Nat × Bool :=
  let stride := 2 ^ bits w0 59 58
  let sec := bits w0 25 0 + i * stride
  let (s, rd) := tileRead s t (sliceRow t (sec / 8)) 6
  let off := sec % 8 * 64
  (s, bits rd.data (8 * off + 512 * stride - 1) (8 * off), bits rd.pois ((off + 64 * stride) / 16 - 1) (off / 16) != 0)

def gatherEntries (s : State) (t w0 : Nat) : List (Nat × Nat) → State × List (Nat × Bool × Nat)
  | [] => (s, [])
  | i :: rest =>
    let (s, e, p) := gatherEntry s t w0 i.1
    let (s, l) := gatherEntries s t w0 rest
    (s, (e, p, i.2) :: l)

/-- Entries divided into bags. -/
def bagsOf {α : Type} (l : List α) : List Nat → List (List α)
  | [] => []
  | n :: t => l.take n :: bagsOf (l.drop n) t

/-- One output vector of a bag: its bits and its poison. -/
def bagVector (g : GatherReq) (w0 : Nat) (bag : List (Nat × Bool × Nat)) : Nat × Bool :=
  let fmt := bits w0 62 60
  let ow := if g.outFmt = 0 then 32 else 16
  let v := if g.outFmt = 3 then (match bag with | e :: _ => e.1 | [] => 0)
    else (buildElems ow (fun k => (outElem g.outFmt (poolElem g.pool
      (bag.map fun e => (entryValue fmt e.1 k, fpDecode fmtFp32 e.2.2))), 0)) (bits w0 57 48 + 1)).1
  (v, bag.any (·.2.1))

/-- The reply rows of vectors padded to 64 bytes, each with the poison of every vector that it holds a byte of. -/
def packVectors (size : Nat) (vs : List (Nat × Bool)) : List PRow :=
  let body := vs.foldr (fun v acc => v.1 % 2 ^ (8 * size) + acc * 2 ^ (8 * size)) 0
  (upFrom 0 (ceilDiv (vs.length * size) 512)).map fun r =>
    let bad := vs.zipIdx.any fun v => v.1.2 && decide (v.2 * size < 512 * (r + 1)) && decide (512 * r < (v.2 + 1) * size)
    { data := BitVec.ofNat 4096 (body >>> (4096 * r)), poison := if bad then BitVec.allOnes 32 else 0 }

/-- A reply of a port tile (R458, R459, R473). -/
def sendReply (s : State) (t dst base counter kind : Nat) (rows : List PRow) : State :=
  enqueue s (tileSite t)
    { kind := .reply, ptype := 5, dst := BitVec.ofNat 14 dst, base := 0, count := rows.length, done := 0,
      op := BitVec.ofNat 128 (fields [(base, 112), (counter, 106), (rows.length - 1, 94), (kind, 93)]), id := 0,
      rows := some rows, port := none, waited := false, pc := 0, bslot := 0, cyc := 0 } none

/-- A port tile serves a gather (R474 to R478): the reply, or the code that refuses it. -/
def serveGather (s : State) (t : Nat) (rows : List PRow) (base counter : Nat) : State × Option Nat :=
  let g := gatherReq rows
  let d := tget tblDesc0 (getTile s t).tables g.table
  match gatherCheck g d rows.length with
  | some c => (s, some c)
  | none =>
    let w0 := d.w0.toNat
    let (s, es) := gatherEntries s t w0 g.items
    let bags := if g.pool = 0 then es.map fun e => [e] else bagsOf es g.lens
    let bad := rows.any fun r => r.poison != 0
    let vs := bags.map fun b => let v := bagVector g w0 b; (v.1, v.2 || bad)
    (sendReply s t g.dst base counter 1 (packVectors (ceilDiv (vecSize g w0) 64 * 64) vs), none)

/-! ## Tables (R468, R469, R903) -/

/-- Whether a descriptor may be installed (R469, R470). -/
def tableOk (s : State) (w0 w1 : Nat) : Bool :=
  let stride := 2 ^ bits w0 59 58
  let n := bits w1 26 0
  bits w0 25 0 % stride == 0 && n != 0 && decide (n ≤ 67108864)
    && decide ((bits w0 25 0 + n * stride) ≤ programRows s * 8)
    && (match entryBytes (bits w0 62 60) (bits w0 57 48 + 1) with | some b => decide (b ≤ stride * 64) | none => false)

/-- A write to a table descriptor: word 1 is held; word 0 installs both, or removes the table (R469). -/
def tableWrite (s : State) (t d : Nat) (word1 : Bool) (v : Word) : State :=
  let w := v.toNat
  let put := fun (f : TblDesc → TblDesc) => modTile s t fun x => { x with tables := tmod tblDesc0 x.tables d f }
  if word1 then (if bits w 63 27 = 0 then put fun x => { x with hold := v } else s)
  else if bits w 47 26 ≠ 0 then s
  else if !bit w 63 then put fun x => { x with w0 := v, w1 := x.hold }
  else if tableOk s w (tget tblDesc0 (getTile s t).tables d).hold.toNat then put fun x => { x with w0 := v, w1 := x.hold }
  else s

/-! ## Scrubs and refresh -/

/-- A scratchpad scrubber's next row (R239 to R241): a corrected row is written back unless another write lands first; an
uncorrectable codeword is written back with the poison mark and raises SWC_UE. It moves on at most once in 256 K-cycles. -/
def scrubRow (s : State) (u : Nat) (otherWrite : Bool) : State :=
  let c := getCore s u
  if !isCoreKind (kindOf s u) ∨ c.run = .fenced ∨ c.scrubAt.any fun t => decide ((s.clk.master - t).toNat < 16) then s
  else
    let r := c.scrub
    let (s, rd) := coreRead s u r 0 c.pc c.cycle
    let s := if otherWrite ∨ (rd.corr = 0 ∧ rd.ue.isNone) then s
      else scratchWrite s u r rd.data (rd.pois != 0)
    modCore s u fun c => { c with scrubAt := some s.clk.master, scrub := (r + 1) % rowCount (profileOf (kindOf s u)) }

/-- A port tile's patrol scrub of its next row (R456): a corrected row is written back; a row that stays uncorrectable
becomes damaged, with an event and no fault. -/
def patrolRow (s : State) (t : Nat) (otherWrite : Bool) : State :=
  let x := getTile s t
  let row := sliceRow t x.scrub
  let a := hbmAddr (t / 16) row
  let next := fun s => modTile s t fun x => { x with scrub := (x.scrub + 1) % sliceRows s }
  if s.pwr.selfRef then s
  else if setHas x.damaged row then next s
  else
    let rd := storeRead s.hbm a s.free
    let s := countHbm { s with free := rd.free } t row rd.corr
    let (s, rd) := match rd.ue with
      | none => (s, rd)
      | some _ => let rd2 := storeRead s.hbm a s.free; (countHbm { s with free := rd2.free } t row (rd2.corr - rd.corr), rd2)
    match rd.ue with
    | some _ => next (damagedEvent (damage s t row) t row 0 true)
    | none =>
      if rd.corr = 0 ∨ otherWrite then next s
      else next (hbmWrite s (t / 16) row rd.data (rd.pois != 0))

/-! ## Commands -/

/-- R239: The scratchpad scrubber reads the next row in an idle cycle and writes back a corrected row. -/
def execScrub (u : Site) (otherWrite : Bool) (s : State) : Answer := .next (clocked s (scrubRow s u.val otherWrite))

/-- R457: A bank refresh in the fixed per-bank rotation falls due: the channel's rotation moves on. -/
def execRefresh (t : Tile) (channel : Bool) (s : State) : Answer :=
  .next (clocked s (if s.pwr.selfRef then s else modTile s t.val fun x => { x with bank := tmod 0 x.bank (ofBool channel) (· + 1) }))

/-- R456: A port tile's patrol scrub reads a row in an unused sector time and writes back a correction. -/
def execPatrolScrub (t : Tile) (otherWrite : Bool) (s : State) : Answer := .next (clocked s (patrolRow s t.val otherWrite))

end Sys2Proof.Machine
end

