-- ==== Sys2Proof/Machine/Packets.lean ====
section
/-! DEFINITION. The receive side of the packet fabric (R363 to R373, R921): acceptance, reorder, the checks of hall passes
(R268 to R277), channels (R413 to R422) and port tiles (R474), answers at the source (R374 to R381), hops (R356 to R360), and
epochs (R341 to R349). -/

namespace Sys2Proof.Machine

/-! ## Reorder contexts -/

def ctx0 (src : Epid) (seq : BitVec 16) (now : Tick) : Ctx :=
  { src := src, expected := seq, held := [], last := now, progress := 0, place := none, refuse := none, counter := 0, gather := [],
    refusals := [] }
def findCtx (e : Endpoint) (src : Epid) : Option Ctx := e.ctxs.find? (·.src == src)
def setCtx (s : State) (key : Nat) (c : Ctx) : State :=
  modEp s key fun e => { e with ctxs := if e.ctxs.any (·.src == c.src) then e.ctxs.map (fun x => if x.src = c.src then c else x)
                                        else e.ctxs ++ [c] }

/-- Packets that the reorder store of a site's cluster router holds (R365). -/
def storeHeld (s : State) (key : Nat) : Nat :=
  s.fab.eps.foldl (fun a e =>
    if e.1 = key ∨ (e.1 < 12800 ∧ key < 12800 ∧ gclusterOf e.1 = gclusterOf key) then
      a + e.2.ctxs.foldl (fun b c => b + c.held.length) 0
    else a) 0

/-! ## WRITE (R244, R249, R268 to R272, R355) -/

/-- Writing the rows of a packet from row r of a core. -/
def landRows (s : State) (u r : Nat) : List PRow → State
  | [] => s
  | x :: t => landRows (inboundRow s u r x.data.toNat (x.poison != 0)) u (r + 1) t

def findPass (c : Core) (n : Nat) : Option HallPass := c.passes.find? fun h => h.number.toNat == n
def modPass (s : State) (u n : Nat) (f : HallPass → HallPass) : State :=
  modCore s u fun c => { c with passes := c.passes.map fun h => if h.number.toNat = n then f h else h }

/-- The checks of R269 on a hall-pass write of n rows at an offset: the first code, or none. -/
def passCheck (s : State) (u : Nat) (h : Option HallPass) (src off n : Nat) : Option Nat :=
  match h with
  | none => some 0x40
  | some h =>
    if h.paused then some 0x41
    else if h.expiry.toNat ≤ timeAt s u then some 0x42
    else if src &&& h.srcMask.toNat ≠ h.srcBase.toNat &&& h.srcMask.toNat then some 0x43
    else if h.rows < off + n then some 0x44
    else if h.credit < 512 * n then some 0x45
    else none

/-- The end of a packet of an operation of n rows: the operation is over with its last packet. -/
def ctxAfter (c : Ctx) (k : Packet) : Ctx :=
  if k.last then { c with progress := 0, place := none, refuse := none, gather := [] } else { c with progress := c.progress + k.rows.length }

/-- Rows of an accepted write, and its counter with the last of them (R244, R270). -/
def landWrite (s : State) (u : Nat) (c : Ctx) (k : Packet) (base n : Nat) : State :=
  let s := landRows s u (base + c.progress) k.rows
  if k.last then bumpCounter s u c.counter n else s

/-- A WRITE whose turn has come at a core (R249, R268 to R271, R762). -/
def applyWrite (s : State) (u : Nat) (c : Ctx) (k : Packet) : State × Ctx × Option Nat :=
  let w := k.op.toNat
  let base := bits w 127 112
  let hp := bits w 105 90
  let n := bits w 77 72 + 1
  match c.refuse, c.place with
  | some code, _ => (s, ctxAfter c k, some code)
  | none, some b =>
    let paused := hp != 0 && (match findPass (getCore s u) hp with | some h => h.paused | none => false)
    if paused then (s, c, some 0x41) else (landWrite s u c k b n, ctxAfter c k, none)
  | none, none =>
    if hp = 0 then
      if rowCount (profileOf (kindOf s u)) < base + n then (s, ctxAfter { c with refuse := some 0x4C } k, some 0x4C)
      else
        let c := { c with place := some base, counter := bits w 111 106 }
        (landWrite s u c k base n, ctxAfter c k, none)
    else
      let h := findPass (getCore s u) hp
      match passCheck s u h (bits w 89 78) base n with
      | some code =>
        let s := modPass s u hp fun h => { h with refusedW := sat32 h.refusedW 1 }
        (s, if code = 0x41 then c else ctxAfter { c with refuse := some code } k, some code)
      | none =>
        let b := (h.map (·.base)).getD 0 + base
        let c := { c with place := some b, counter := (h.map (·.counter.toNat)).getD 0 }
        let s := modPass s u hp fun h => { h with credit := h.credit - 512 * n, accepted := sat32 h.accepted n }
        (landWrite s u c k b n, ctxAfter c k, none)

/-! ## MESSAGE (R413 to R421) -/

/-- The header of a message and the wrap marker (R415). -/
def msgHeader (s : State) (u w : Nat) (src : Epid) : Nat :=
  fields [(0xA5, 120), (bits w 93 88, 114), (src.toNat, 100), (bits w 122 118, 95), (bits w 117 110, 87), (bits w 109 94, 71),
    (timeAt s u % 2 ^ 32, 39)]
def wrapMarker (n : Nat) : Nat := fields [(0x5A, 120), (n, 107)]

/-- The first check of R416 that a message of n rows fails, and where R417 places it otherwise. -/
def msgCheck (x : Chan) (src : Epid) (w n : Nat) : Nat ⊕ Nat :=
  let free := chRows x - x.used
  let tail := chRows x - x.wo
  if chRole x ≠ 2 ∨ src.toNat ≠ chPeer x ∨ bits w 122 118 ≠ chPeerCh x then .inl 0x66
  else if x.paused then .inl 0x65
  else if bits w 117 110 ≠ x.gen.toNat then .inl 0x63
  else if x.recvState = .closed then .inl 0x62
  else if bits w 109 94 ≠ x.expected.toNat then .inl 0x64
  else if chRows x < n then .inl 0x61
  else if n ≤ tail then (if free < n then .inl 0x60 else .inr x.wo)
  else if free < tail + n then .inl 0x60
  else .inr 0

/-- A row of an accepted message, the first with its header. -/
def landMsg (s : State) (u r : Nat) (hdr : Option Nat) : List PRow → State
  | [] => s
  | x :: t =>
    let d := match hdr with | some h => x.data.toNat / 2 ^ 128 * 2 ^ 128 + h | none => x.data.toNat
    landMsg (landRow (settleCore s u) u r d (x.poison != 0)) u (r + 1) none t

/-- Rows of an accepted message; with its last row it is delivered (R419, R438), and its receiver runs at least as late as its
sender (R74). -/
def msgRows (s : State) (u ch : Nat) (c : Ctx) (k : Packet) (place : Nat) (hdr : Option Nat) : State :=
  let s := landMsg s u (chBase (getChan (getCore s u) ch) + place + c.progress) hdr k.rows
  if k.last then modCore s u fun q =>
    let x := getChan q ch
    let l := (siteOfId s k.src.toNat).elim 0 fun v => (getCore s v).lag
    { setChan q ch { x with delivered := x.delivered + 1, cDelivered := sat32 x.cDelivered 1 } with lag := max q.lag l }
  else s

/-- A MESSAGE whose turn has come at a core (R416 to R420). -/
def applyMessage (s : State) (u : Nat) (c : Ctx) (k : Packet) : State × Ctx × Option Nat :=
  let w := k.op.toNat
  let ch := bits w 127 123
  let n := bits w 93 88 + 1
  match c.refuse, c.place with
  | some code, _ => (s, ctxAfter c k, some code)
  | none, some p => (msgRows s u ch c k p none, ctxAfter c k, none)
  | none, none =>
    let x := getChan (getCore s u) ch
    match msgCheck x k.src w n with
    | .inl code =>
      let s := modCore s u fun q => let x := getChan q ch; setChan q ch { x with cDropped := sat32 x.cDropped 1 }
      (s, ctxAfter { c with refuse := some code } k, some code)
    | .inr p =>
      let tail := chRows x - x.wo
      let wrap := decide (tail < n)
      let s := if wrap then landRow (settleCore s u) u (chBase x + x.wo) (wrapMarker tail) false else s
      let s := modCore s u fun q => let x := getChan q ch
        setChan q ch { x with used := x.used + n + (if wrap then tail else 0), wo := (p + n) % chRows x, expected := x.expected + 1 }
      let c := { c with place := some p }
      (msgRows s u ch c k p (some (msgHeader s u w k.src)), ctxAfter c k, none)

/-! ## Port tiles (R459 to R463, R474) and replies -/

/-- The inbound DMA that a reply answers: the first issued to its tile for those rows and that counter. -/
def dmaOf (c : Core) (src : Epid) (base n counter : Nat) : Option DmaIn :=
  c.dmaIn.find? fun d => d.src == src && d.base == base && d.n == n && d.counter == counter

/-- That DMA has n rows fewer to come (R138), and its operation n more written (R103). -/
def dmaLanded (s : State) (u op n : Nat) : State :=
  let s := modEp s u fun e => { e with ops := e.ops.map fun o => if o.id = op then { o with acked := o.acked + n } else o }
  modCore s u fun c => { c with dmaIn := (c.dmaIn.map fun d =>
    if d.op = op then { d with left := d.left - n } else d).filter fun d => d.left != 0 }

/-- A READ_REPLY at a core (R249, R458, R459): the whole reply is checked with its first packet, and the counter rises by its rows with
the last of them. -/
def applyReply (s : State) (u : Nat) (c : Ctx) (k : Packet) : State × Ctx × Option Nat :=
  let w := k.op.toNat
  let r := bits w 127 112
  let n := bits w 105 94 + 1
  let base := r - c.progress
  match c.refuse with
  | some x => (s, ctxAfter c k, some x)
  | none =>
    if rowCount (profileOf (kindOf s u)) < base + n then (s, ctxAfter { c with refuse := some 0x4C } k, some 0x4C)
    else
      let s := landRows s u r k.rows
      let s := match bit w 93, dmaOf (getCore s u) k.src base n (bits w 111 106) with
        | false, some d => dmaLanded s u d.op k.rows.length
        | _, _ => s
      (if k.last then bumpCounter s u (bits w 111 106) n else s, ctxAfter c k, none)

/-- Whether a source is a program: an ID of a core, not of the host (R449). -/
def fromProgram (k : Packet) : Bool := decide (k.src.toNat < 12800)

/-- A DMA_READ at a port tile (R459, R462): the reply, or NAK_HBM_ADDR. -/
def applyDmaRead (s : State) (t : Nat) (c : Ctx) (k : Packet) : State × Ctx × Option Nat :=
  let w := k.op.toNat
  let row := bits w 127 101
  let n := bits w 100 89 + 1
  if badRange s t row n (fromProgram k) then (s, ctxAfter c k, some 0x70)
  else
    let (s, rows) := tileReads s t row n
    (sendReply s t k.src.toNat (bits w 88 73) (bits w 72 67) 0 rows, ctxAfter c k, none)

def writeTile (s : State) (t row : Nat) : List PRow → State
  | [] => s
  | x :: l => writeTile (tileWrite s t row x.data.toNat (x.poison != 0)) t (row + 1) l

/-- A DMA_WRITE at a port tile (R460, R474, R924): the whole range is checked with the first packet; a refused request
writes no row, and the code answers its last packet. -/
def applyDmaWrite (s : State) (t : Nat) (c : Ctx) (k : Packet) : State × Ctx × Option Nat :=
  let w := k.op.toNat
  let row := bits w 127 101
  let n := bits w 100 89 + 1
  let code := if c.progress = 0 then
      (if badRange s t row n (fromProgram k) then some 0x70
       else if (upFrom row n).any (isLoam s (t / 16)) then some 0x71 else none)
    else c.refuse
  match code with
  | some x => (s, ctxAfter { c with refuse := some x } k, if k.last then some x else none)
  | none => (writeTile s t row k.rows, ctxAfter c k, none)

/-- A GATHER packet at a port tile (R461, R462, R474): the request is served with its last packet. -/
def applyGather (s : State) (t : Nat) (c : Ctx) (k : Packet) : State × Ctx × Option Nat :=
  let rows := c.gather ++ k.rows
  if k.last then
    let (s, code) := serveGather s t rows (bits k.op.toNat 127 112) (bits k.op.toNat 111 106)
    (s, ctxAfter c k, code)
  else (s, ctxAfter { c with gather := rows } k, none)

/-! ## Arrival -/

/-- Whether the unit at a site serves a packet type (R921). -/
def serves (s : State) (u ptype : Nat) : Bool :=
  match kindOf s u with
  | some .portTile => ptype == 3 || ptype == 4 || ptype == 6
  | some .spurTile => false
  | some .serviceTile => false
  | some .edgeTile => false
  | some _ => ptype == 1 || ptype == 2 || ptype == 5
  | none => false

/-- The tile at a port tile's site. -/
def tileAt (u : Nat) : Nat := regionOf u * 16 + (floorCol u - 2)

/-- A packet whose turn has come at its destination site. -/
def applyAny (s : State) (u : Nat) (c : Ctx) (k : Packet) : State × Ctx × Option Nat :=
  match k.ptype with
  | 1 => applyWrite s u c k
  | 2 => applyMessage s u c k
  | 3 => applyDmaRead s (tileAt u) c k
  | 4 => applyDmaWrite s (tileAt u) c k
  | 5 => applyReply s u c k
  | _ => applyGather s (tileAt u) c k

/-- The packets that a flow has refused for good, of the last half of the sequence range: a refused packet is not applied (R373), so
a further copy of it is no duplicate of R366. -/
def keepRefusals (c : Ctx) (k : Packet) (code : Option Nat) (past : Bool) : List (BitVec 16 × Nat) :=
  (match code with | some x => if past then [(k.seq, x)] else [] | none => [])
    ++ c.refusals.filter fun e => decide ((k.seq - e.1).toNat < 32767)

/-- The packet that a flow expects next (R364, R373): applied and acknowledged, or refused; a packet refused with a final
code counts as past, one refused with a retryable code stays expected. -/
def takeTurn (s : State) (key : Nat) (c : Ctx) (k : Packet) (app : State → Ctx → Packet → State × Ctx × Option Nat) :
    State × Bool :=
  let (s, c, code) := app s c k
  let past := code != some 0x41 && code != some 0x49
  let c := { c with last := s.clk.master, expected := if past then k.seq + 1 else c.expected,
                    refusals := keepRefusals c k code past }
  let s := setCtx s key c
  let s := if code.isNone then countEp s key 8 1 else s
  (answer s k code, past)

/-- Held packets whose turn has come, one after another. -/
def drainHeld (s : State) (key : Nat) (src : Epid) (app : State → Ctx → Packet → State × Ctx × Option Nat) : Nat → State
  | 0 => s
  | n + 1 =>
    match findCtx (getEp s key) src with
    | none => s
    | some c =>
      match c.held.find? fun k => k.seq == c.expected with
      | none => s
      | some k =>
        let c := { c with held := c.held.filter fun x => x.seq != k.seq }
        let (s, go) := takeTurn s key c k app
        if go then drainHeld s key src app n else s

/-- NAK_BUSY and NAK_CRC are counted where they are sent (R394). -/
def refuseArrival (s : State) (key : Nat) (k : Packet) (code : Nat) : State :=
  answer (countEp s key (if code = 0x48 then 10 else 11) 1) k (some code)

/-- Sequence and reorder (R363 to R368) at an endpoint. -/
def sequencePacket (s : State) (key : Nat) (k : Packet) (app : State → Ctx → Packet → State × Ctx × Option Nat) : State :=
  let e := getEp s key
  let c? := match findCtx e k.src with
    | some c => some c
    | none => if k.opn ∧ e.ctxs.length < 64 then some (ctx0 k.src k.seq s.clk.master) else none
  match c? with
  | none => refuseArrival s key k 0x49
  | some c =>
    if k.seq = c.expected then
      match takeTurn s key c k app with
      | (s, true) => drainHeld s key k.src app c.held.length
      | (s, false) => s
    else if (c.expected - k.seq).toNat < 32768 then
      match c.refusals.find? fun e => e.1 == k.seq with
      | some e => answer s k (some e.2)
      | none => answer (countEp (setCtx s key c) key 9 1) k none
    else if c.held.any fun x => x.seq == k.seq then countEp s key 9 1
    else if 64 ≤ storeHeld s key then refuseArrival s key k 0x49
    else countEp (setCtx s key { c with held := c.held ++ [k] }) key 12 1

/-- Whether a packet is too old to go on, wherever it is (R359): 800 T ticks past its injection have elapsed, modulo 2^16 (R610). -/
def tooOld (s : State) (k : Packet) : Bool := !(BitVec.ofNat 16 (timeAt s k.pos) - k.injTime - 800).msb

/-- Whether a payload row carries a poison mark that the header's source-poison bit of its row does not announce: transit damage (R370,
R371). -/
def transitPoison (k : Packet) : Bool := k.rows.zipIdx.any fun e => e.1.poison != 0 && !bit k.srcPois.toNat e.2

/-- A packet that has reached its destination (R344, R345, R359, R360, R369 to R372). -/
def arrive (s : State) (key : Nat) (k : Packet) (d : Damage) (served : Bool)
    (app : State → Ctx → Packet → State × Ctx × Option Nat) : State :=
  if tooOld s k then s else
  let s := countEp s key 13 d.corrected
  if d.headUe then s
  else
  let (s, r) := routerLookup s k.pos k.epoch k.dst.toNat
  if !acceptsAs s k r then (if d.crcBad then s else answer s k (some (rejectCode s k)))
  else if d.crcBad ∨ d.payloadUe ∨ transitPoison k then refuseArrival s key k 0x48
  else if !served then answer s k (some 0x4B)
  else sequencePacket s key k app

/-- The i-th packet in flight, taken out of the fabric. -/
def takePacket (s : State) (i : Nat) : Option (Packet × State) :=
  (s.fab.flight[i]?).map fun k => (k, { s with fab := { s.fab with flight := ldel s.fab.flight i } })

/-- Whether a packet has come to a unit's site, or to the ring engine of a port (R535, R538). -/
def atUnit (k : Packet) : Bool := k.pos == k.dstSite && k.toPort.isNone

/-- Whether a packet has come to a ring engine that does not serve it: a request for a port ID, or one that is no WRITE for an output
alias (R921). -/
def strayAtEngine (k : Packet) : Bool :=
  k.pos == k.dstSite && k.toPort.isSome && decide (12800 ≤ k.dst.toNat ∧ k.dst.toNat < 12840)
    && !(k.ptype == 1 && isOutAlias k.dst.toNat)

/-- A packet of one type arrives at a unit, or at a ring engine that answers that it does not serve it. -/
def receive (s : State) (i : Nat) (d : Damage) (ptype : Nat) : State :=
  match takePacket s i with
  | none => s
  | some (k, s') =>
    if k.ptype ≠ ptype then s
    else if atUnit k then arrive s' k.pos k d (serves s k.pos ptype) (fun s c k => applyAny s k.pos c k)
    else if strayAtEngine k then arrive s' (12800 + (k.toPort.getD 0).val) k d false (fun s c _ => (s, c, none))
    else s

/-! ## Answers at the source -/

/-- The endpoint whose answer a packet is: a site, or the ring engine of a port. -/
def answerKey (k : Packet) : Nat := match k.toPort with | some n => 12800 + n.val | none => k.pos

/-- Whether an ACK or NAK may reach its source: it is routed to the site of its header (R373), whose router takes it only unfenced and in
an epoch that is active or retiring (R344). -/
def answerAccepted (s : State) (k : Packet) : Bool :=
  (k.epoch == s.fab.active || s.fab.retiring) && !isFenced s k.pos
    && (k.toPort.isSome || k.dst == BitVec.ofNat 14 (idOfSite s k.pos) || siteOfId s k.dst.toNat == some k.pos)

/-- An ACK or NAK at its source (R344, R373, R374, R379): damaged ones, and ones that its router does not accept, are lost. -/
def receiveAnswer (s : State) (i : Nat) (d : Damage) (ptype : Nat) : State :=
  match takePacket s i with
  | none => s
  | some (k, s') =>
    if k.pos == k.dstSite && k.ptype == ptype then
      let key := answerKey k
      let s' := countEp s' key 13 d.corrected
      if tooOld s k ∨ d.headUe ∨ d.crcBad ∨ !answerAccepted s k then s'
      else
        match findRec (getEp s' key) k.src (BitVec.ofNat 16 (bits k.op.toNat 127 112)) with
        | none => s'
        | some r => if ptype = 7 then ackRec s' key r else nakRec s' key r (bits k.op.toNat 111 104)
    else s

/-! ## Hops (R356 to R360) -/

/-- The tiles at which a packet for `dst` at `pos` may leave its die, with the site beyond: one for an X boundary, one for a Y boundary,
where the destination lies beyond it. -/
def exits (k : Packet) (pos : Nat) : List (Nat × Nat) :=
  let bx := siteX pos / 40
  let byy := siteY pos / 40
  let qx := siteX k.dstSite / 40
  let qy := siteY k.dstSite / 40
  (match k.crossX with
   | some i => let y := byy * 40 + edgeOffset i
               if bx < qx then [(siteXY (bx * 40 + 39) y, siteXY (bx * 40 + 40) y)]
               else if qx < bx then [(siteXY (bx * 40) y, siteXY (bx * 40 - 1) y)] else []
   | none => [])
  ++ (match k.crossY with
      | some i => let x := bx * 40 + edgeOffset i
                  if byy < qy then [(siteXY x (byy * 40 + 39), siteXY x (byy * 40 + 40))]
                  else if qy < byy then [(siteXY x (byy * 40), siteXY x (byy * 40 - 1))] else []
      | none => [])

/-- Hops of the shortest path from a site over the packet's crossing tiles (R356, R357); a die has at most four boundaries ahead. -/
def pathLen (k : Packet) : Nat → Nat → Option Nat
  | 0, pos => if dieOf pos = dieOf k.dstSite then some (hopCount pos k.dstSite) else none
  | n + 1, pos =>
    if dieOf pos = dieOf k.dstSite then some (hopCount pos k.dstSite)
    else ((exits k pos).filterMap fun e => (pathLen k n e.2).map fun l => hopCount pos e.1 + 1 + l).min?

/-- The edge link of a tile that a packet crosses on (R357, R669): (sequence mod 2), or the tile's other one where that is disabled. -/
def edgeLinkOf (s : State) (k : Packet) (u : Nat) : Option Nat :=
  let i := k.seq.toNat % 2
  if tget .full s.brg.links (edgeLinkKey u i) ≠ .disabled then some i
  else if tget .full s.brg.links (edgeLinkKey u (1 - i)) ≠ .disabled then some (1 - i) else none

/-- Where an output of a router leads a packet. -/
def outputTo (s : State) (k : Packet) (d : Dir) : Option Nat :=
  match d with
  | .edge => if (edgeLinkOf s k k.pos).isSome then ((exits k k.pos).find? fun e => e.1 == k.pos).map (·.2) else none
  | _ => match neighbour k.pos d with
    | some v => if dieOf v = dieOf k.pos then some v else none
    | none => none

/-- Where a packet goes on an output, if that output is productive: on a minimal path. -/
def hopTo (s : State) (k : Packet) (d : Dir) : Option Nat :=
  match outputTo s k d with
  | none => none
  | some v =>
    match pathLen k 4 k.pos, pathLen k 4 v with
    | some a, some b => if b + 1 = a then some v else none
    | _, _ => none

/-- The outputs that are productive for a packet. -/
def productive (s : State) (k : Packet) : List Dir :=
  [Dir.north, .east, .south, .west, .edge].filter fun d => (hopTo s k d).isSome
/-- Whether an output leads along X. -/
def alongX (d : Dir) : Bool := match d with | .east => true | .west => true | _ => false

/-- The output that the router takes (R356): the one that offers a cycle first, or, where two offer the same, the one along the other
axis than the last such packet's. -/
def chosenDir (s : State) (k : Packet) (d : Dir) (both : Bool) : Dir :=
  if both ∧ 2 ≤ (productive s k).length then
    ((productive s k).find? fun x => alongX x != tget false s.fab.turns k.pos).getD d
  else d

/-- One hop (R356 to R360): a packet that is too old or whose head is uncorrectable is dropped, whether an output leads on or not; at its
injection point a packet for the link leaves. -/
def hop (s : State) (i : Nat) (d : Dir) (both headUe : Bool) : State :=
  match s.fab.flight[i]? with
  | none => s
  | some k =>
    let s' := { s with fab := { s.fab with flight := ldel s.fab.flight i } }
    if headUe || tooOld s k then s'
    else
      let d := chosenDir s k d both
      match hopTo s k d with
      | none => s
      | some v =>
        let turn := fun (x : State) =>
          if both then { x with fab := { x.fab with turns := tset false x.fab.turns k.pos (alongX d) } } else x
        let k := { k with pos := v }
        turn (if leavesModule k then launch s' k else { s with fab := { s.fab with flight := lset s.fab.flight i k } })

/-! ## Timers of the fabric -/

/-- A record's timeout in T ticks (R381). -/
def timeoutOf (s : State) (r : Rec) : Nat :=
  if isKind1 r.hdr.dst.toNat then s.fab.rstoRemote.toNat * 400 else s.fab.rstoLocal.toNat * 100

def recAt (s : State) (key i : Nat) : Option Rec := (getEp s key).recs[i]?

/-- R379 to R381. -/
def resendTimeout (s : State) (key i : Nat) : State :=
  match recAt s key i with
  | none => s
  | some r =>
    if s.fab.drainFrom.isSome ∨ r.delayed.isSome ∨ (s.clk.master - r.lastTx).toNat < timeoutOf s r then s
    else pump (resendOrFail (countEp s key 3 1) key r) key

/-- R379. -/
def resendDelayed (s : State) (key i : Nat) : State :=
  match recAt s key i with
  | none => s
  | some r =>
    match r.delayed with
    | none => s
    | some t => if s.fab.drainFrom.isSome ∨ (s.clk.master - t).toNat < 100 then s else pump (resend s key r true) key

/-- R361, R362. -/
def flowClose (s : State) (key : Nat) (dst : Epid) : State :=
  let e := getEp s key
  match findFlow e dst with
  | none => s
  | some f =>
    if e.recs.any (fun r => r.hdr.dst == dst) ∨ (s.clk.master - f.lastAct).toNat < 3200 then s
    else pump (setEp s key { e with flows := e.flows.filter fun g => g.dst != dst }) key

/-- R363. -/
def ctxClose (s : State) (key : Nat) (src : Epid) : State :=
  let e := getEp s key
  match findCtx e src with
  | none => s
  | some c =>
    if !c.held.isEmpty ∨ (s.clk.master - c.last).toNat < 1600 then s
    else setEp s key { e with ctxs := e.ctxs.filter fun x => x.src != src }

/-! ## Epochs (R341 to R349) -/

/-- At the flip time the written epoch becomes active and the other retires. -/
def epochFlip (s : State) : State :=
  if s.fab.pending ∧ s.fab.flipTime ≤ s.clk.master then
    { s with fab := { s.fab with active := !s.fab.active, pending := false, retiring := true, flippedAt := s.clk.master } }
  else s

/-- The retiring epoch may be written again, 1,000 T ticks after the flip; contents that waited are written then. -/
def retiringRelease (s : State) : State :=
  if s.fab.retiring ∧ 1000 ≤ (s.clk.master - s.fab.flippedAt).toNat then
    let s := { s with fab := { s.fab with retiring := false } }
    match s.fab.want with
    | some t => requestFlip s fun _ => t
    | none => s
  else s

/-- Every record and context is discarded, and every operation that they served fails (R349): one with a record, and one that has been sent
in part, which a context at its destination has begun. -/
def loseRecords (s : State) : State :=
  s.fab.eps.foldl (fun s e =>
    let ids := (e.2.recs.map (·.op) ++ (e.2.outq.filter fun r => r.port.isNone && r.done != 0).map (·.id)).eraseDups
    let s := modEp s e.1 fun x => { x with recs := [], ctxs := [] }
    ids.foldl (fun s id => finishById s e.1 id (some 0x51)) s) s

/-- The contents that both epochs take: the active ones with every change decided so far (R349). -/
def decidedTables (s : State) : Tables :=
  match s.fab.want with
  | some t => t
  | none => if s.fab.pending then tabOf s (!s.fab.active) else tabOf s s.fab.active

/-- The end of a fabric drain (R349). -/
def fabricDrain (s : State) : State :=
  match s.fab.drainFrom with
  | none => s
  | some t =>
    if (s.clk.master - t).toNat < 1000 then s
    else
      let tab := decidedTables s
      let s := loseRecords s
      let s := { s with fab := { s.fab with tab0 := tab, tab1 := tab, routerErrs := [], active := false, pending := false, retiring := false, want := none,
                                            drainFrom := none, flight := [] } }
      s.fab.eps.foldl (fun s e => pump s e.1) s

/-! ## Commands -/

/-- R270: A WRITE packet is checked, including hall-pass checks, and applied to the destination scratchpad. -/
def execWrite (i : Nat) (d : Damage) (s : State) : Answer := .next (clocked s (receive s i d 1))

/-- R416: A MESSAGE packet is checked for acceptance and its rows placed in the receive ring. -/
def execMessage (i : Nat) (d : Damage) (s : State) : Answer := .next (clocked s (receive s i d 2))

/-- R459: A port tile serves a DMA_READ request and returns READ_REPLY packets. -/
def execDmaRead (i : Nat) (d : Damage) (s : State) : Answer := .next (clocked s (receive s i d 3))

/-- R924: A port tile writes a DMA_WRITE packet's rows into the stack and acknowledges it. -/
def execDmaWrite (i : Nat) (d : Damage) (s : State) : Answer := .next (clocked s (receive s i d 4))

/-- R474: A port tile checks a gather request, pools its table entries and replies. -/
def execGather (i : Nat) (d : Damage) (s : State) : Answer := .next (clocked s (receive s i d 6))

/-- R459: A READ_REPLY packet writes rows at the requester and increments its reply counter. -/
def execReadReply (i : Nat) (d : Damage) (s : State) : Answer := .next (clocked s (receive s i d 5))

/-- R374: An ACK frees a re-send record and completes the operation when all its packets are acknowledged. -/
def execAck (i : Nat) (d : Damage) (s : State) : Answer := .next (clocked s (receiveAnswer s i d 7))

/-- R379: A NAK at the source leads to a re-send or failure of the operation. -/
def execNak (i : Nat) (d : Damage) (s : State) : Answer := .next (clocked s (receiveAnswer s i d 8))

/-- R356: A router forwards a packet's head flit on a productive output in a free cycle or bubble. -/
def execPacketHop (i : Nat) (d : Dir) (h : HopMade) (s : State) : Answer := .next (clocked s (hop s i d h.both h.headUe))

/-- R381: A packet's timeout passes without answer and it is re-sent or failed with FAB_LIMIT. -/
def execResendTimeout (ep rec : Nat) (s : State) : Answer := .next (clocked s (resendTimeout s ep rec))

/-- R379: A delayed re-send after NAK_BUSY or NAK_HP_PAUSED re-reads its rows and is transmitted. -/
def execResend (ep rec : Nat) (s : State) : Answer := .next (clocked s (resendDelayed s ep rec))

/-- R361: A flow closes after 3,200 T ticks without an unacknowledged packet. -/
def execFlowClose (ep : Nat) (dst : Epid) (s : State) : Answer := .next (flowClose s ep dst)

/-- R363: A reorder context closes 1,600 T ticks after its flow's last delivered packet. -/
def execReorderContextClose (ep : Nat) (src : Epid) (s : State) : Answer := .next (ctxClose s ep src)

/-- R341: At the flip time every router makes the written epoch active. -/
def execEpochFlip (s : State) : Answer := .next (clocked s (epochFlip s))

/-- R349: After the 1,000-tick wait the fabric discards contexts, rewrites both epochs and resumes sources. -/
def execFabricDrain (s : State) : Answer := .next (clocked s (fabricDrain s))

/-- R343: 1,000 T ticks after a flip the retiring bit of FAB_EPOCH clears, and the retiring epoch may be written again. -/
def execRetiringEpochRelease (s : State) : Answer := .next (retiringRelease s)

end Sys2Proof.Machine
end

