-- ==== Sys2Proof/Machine/Seating.lean ====
section
/-! DEFINITION. Seating (R26 to R32, R681 to R684, R741 to R746): shares, the unit at a logical site, spares and substitutes. -/

namespace Sys2Proof.Machine

/-- The core kinds by number: 0 S-core, 1 V-core, 2 M-core. -/
def coreKindOf (n : Nat) : UnitKind := match n with | 0 => .sCore | 1 => .vCore | _ => .mCore

/-- A region's share of a core kind (R26, R27): the fused one, else the grade's (assumption 3). -/
def shareOf (s : State) (kind r : Nat) : Nat :=
  match tfind s.fuses.share (kind * 32 + r) with
  | some n => n
  | none =>
    match kind, s.fuses.coreGrade with
    | 2, 10 => 2 | 1, 10 => 64 | _, 10 => 254
    | 2, 9 => if r < 24 then 2 else 1
    | 1, 9 => 56
    | _, 9 => if r < 8 then 231 else 230
    | 2, _ => if r < 16 then 2 else 1
    | 1, _ => 48
    | _, _ => if r < 16 then 207 else 206

/-- The sites of a region's units of one kind, by site number. -/
def kindSites (s : State) (r : Nat) (k : UnitKind) : List Nat :=
  (upFrom 0 20).flatMap fun y => (upFrom 0 20).filterMap fun x =>
    let u := siteXY (r % 8 * 20 + x) (r / 8 * 20 + y)
    if kindOf s u = some k then some u else none

/-- The sites of a region's core sites of one kind in spare order (R658); sites that the fuses do not list follow by
number. -/
def spareOrder (s : State) (kind r : Nat) : List Nat :=
  let first := (tget [] s.fuses.order (kind * 32 + r)).map (·.val)
  first ++ (kindSites s r (coreKindOf kind)).filter fun u => !first.contains u

def isSpare (s : State) (u : Nat) : Bool := s.brg.spares.any fun v => v.val == u

/-- The unit seated at a logical site (R681, R684): the delta's, else the unit of the site's own position. -/
def seatOf (s : State) (l : Nat) : Option Nat :=
  match s.brg.seat.find? fun d => d.1.val == l with
  | some d => if isFenced s d.2.val then none else some d.2.val
  | none =>
    if isCoreKind (kindOf s l) && !isFenced s l && !isSpare s l && !(s.brg.waiting.any fun v => v.val == l) && !(s.brg.seat.any fun d => d.2.val == l)
        && !(s.chk.detained.any fun d => d.out && d.unit.val == l) then some l
    else none

/-- The physical site of a logical one, wherever its unit stands. -/
def physOf (s : State) (l : Nat) : Nat := (seatOf s l).getD l

/-- The logical site at which a unit is seated. -/
def logicalOf (s : State) (u : Nat) : Option Nat :=
  match s.brg.seat.find? fun d => d.2.val == u with
  | some d => some d.1.val
  | none => if seatOf s u = some u then some u else none

/-- The ledger of a region and kind (R741): enabled units neither seated, detained nor fenced. -/
def ledger (s : State) (kind r : Nat) : List Nat :=
  (spareOrder s kind r).filter fun u => isSpare s u && !isFenced s u && !isDetained s u

/-- Spares one site away along a row or column. -/
def oneAway (u v : Nat) : Bool := hopCount u v == 1

/-- A link of the mesh, as a schedule key without its frame cycle (R282): site * 8 + output. -/
def linkOf (key : Nat) : Nat := key / 16
/-- Whether a limit of 12 cycles applies to a link (R53): neighbour and edge links. -/
def isMeshLink (link : Nat) : Bool := link % 8 != 4 && link % 8 != 5
/-- The cycles that a schedule reserves on a link. -/
def reservedOn (t : Tbl (BitVec 16)) (link : Nat) : Nat :=
  t.foldl (fun a e => if linkOf e.1 = link ∧ bit e.2.toNat 15 then a + 1 else a) 0


/-- The substitute for a core (R742): a checked neighbour, the other matrix cluster at K9 and K8, any other spare. -/
def chooseSubstitute (s : State) (p : Option Nat) (u : Nat) : Option Nat :=
  let k := kindCode (kindOf s u)
  let l := ledger s k (regionOf u)
  let near := match p with
    | some p => l.find? fun v => oneAway u v && (getPlc s p).checked.contains (toSite u, toSite v)
    | none => l.find? (oneAway u)
  match near with
  | some v => some v
  | none => l.head?

end Sys2Proof.Machine
end

