-- ==== Sys2Proof/Machine/Paths.lean ====
section
/-! DEFINITION. Paths of streams: the schedule entries that a segment's way reserves (R282, R283, R297), and how a substitution rewrites
them and sets the slack stages (R76 to R81, R287, R926). -/

namespace Sys2Proof.Machine

/-! ## Hops -/

/-- Where an output of a router leads (R21, R282): none for the unit and switch outputs, and off the die. -/
def outputEnd (u d : Nat) : Option Nat :=
  let inDie := fun (x : Dir) => (neighbour u x).filter fun v => dieOf v == dieOf u
  match d with
  | 0 => inDie .north
  | 1 => inDie .east
  | 2 => inDie .south
  | 3 => inDie .west
  | 4 => none
  | 5 => none
  | _ => if isEdgeTile u then facingTile u else none
def hopEnd (h : Hop) : Option Nat := outputEnd h.site.val h.out.val
/-- The side from which what leaves by an output comes in at the next router. -/
def opposite (d : Fin 8) : Fin 8 := if d.val < 4 then Fin.ofNat 8 ((d.val + 2) % 4) else d
/-- Whether a hop crosses between dies (R22). -/
def crosses (h : Hop) : Bool := decide (6 ≤ h.out.val)

/-- Whether each hop leads to the site of the next, and the last delivers (R282). -/
def connected : List Hop → Bool
  | [] => false
  | [h] => h.out == 4 || h.out == 5
  | h :: k :: t => hopEnd h == some k.site.val && connected (k :: t)

/-- Whether a path begins at a segment's source: the site of a core, or any site of the switch's cluster. -/
def startsAt (src : SegSrc) (l : List Hop) : Bool :=
  match src, l.head? with
  | .port u _, some h => h.site == u
  | .slot c _, some h => gclusterOf h.site.val == c.val
  | _, none => false
/-- Whether a path ends at a segment's queue. -/
def endsAt (dst : SegDst) (l : List Hop) : Bool :=
  match dst, l.getLast? with
  | .ring u _ _ _ _, some h => h.site == u && h.out == 4
  | .data c _, some h => gclusterOf h.site.val == c.val && h.out == 5
  | .token c _, some h => gclusterOf h.site.val == c.val && h.out == 5
  | _, none => false

/-! ## The frame cycles of a path (R283) -/

/-- The setting of the slack stages that stand after a hop. -/
def settingAfter (r : Route) (i : Nat) : Nat := ((r.slackAt.zip r.slacks).filter fun e => e.1 == i).foldl (fun a e => a + e.2) 0
/-- From a hop's frame cycle to the next one's: 1, or 4 for a die crossing (assumption 84), and the slack. -/
def hopAdvance (r : Route) (h : Hop) (i : Nat) : Nat := (if crosses h then 4 else 1) + settingAfter r i

/-- The hops of a path from the i-th on, each with the input that it takes its beats from and its frame cycles after the first's. -/
def hopTimes (r : Route) : List Hop → Nat → Nat → Nat → List (Hop × Nat × Nat)
  | [], _, _, _ => []
  | h :: t, i, inp, c => (h, inp, c) :: hopTimes r t (i + 1) (opposite h.out).val (c + hopAdvance r h i)

/-- The mesh hops of a path. -/
def moves (r : Route) : Nat := r.path.length - 1
/-- The way back that a segment's credits take (R297), with its slack stages. -/
def backRoute (r : Route) : Route :=
  let n := moves r
  { r with
    path := (r.path.dropLast.filterMap fun h => (hopEnd h).map fun v => { site := toSite v, out := opposite h.out }).reverse
    slackAt := ((r.slackAt.zip r.slacks).filter fun e => decide (e.1 + 2 ≤ n)).map fun e => n - 2 - e.1
    slacks := ((r.slackAt.zip r.slacks).filter fun e => decide (e.1 + 2 ≤ n)).map (·.2) }

/-- The entry of a hop at a frame cycle (R282), by its key (site * 8 + output) * 16 + frame cycle. -/
def hopEntry (h : Hop) (frame inp kind index target : Nat) : Nat × BitVec 16 :=
  ((h.site.val * 8 + h.out.val) * 16 + frame % 16, BitVec.ofNat 16 (fields [(1, 15), (inp, 12), (kind, 11), (index, 6), (target, 1)]))

def srcInput (src : SegSrc) : Nat := match src with | .port _ _ => 4 | .slot _ _ => 5
def srcIndex (src : SegSrc) : Nat := match src with | .port _ p => p.toNat | .slot _ o => o.toNat
def dstInput (dst : SegDst) : Nat := match dst with | .ring _ _ _ _ _ => 4 | _ => 5
def dstTarget (dst : SegDst) : Nat :=
  match dst with | .ring _ p _ _ _ => p.toNat | .data _ q => q.toNat | .token _ q => 16 + q.toNat

/-- The entries that a segment's beats reserve. -/
def beatEntries (src : SegSrc) (dst : SegDst) (r : Route) : List (Nat × BitVec 16) :=
  (hopTimes r r.path 0 (srcInput src) 0).zipIdx.flatMap fun e =>
    r.frames.map fun f => hopEntry e.1.1 (f.val + e.1.2.2) e.1.2.1 0 (if e.2 = 0 then srcIndex src else 0) (if e.2 = moves r then dstTarget dst else 0)
/-- The entries that its credits reserve in the reverse direction of each mesh hop (R297, assumption 84). -/
def creditEntries (dst : SegDst) (r : Route) : List (Nat × BitVec 16) :=
  let b := backRoute r
  (hopTimes b b.path 0 (dstInput dst) 0).flatMap fun e => r.back.map fun f => hopEntry e.1 (f.val + e.2.2) e.2.1 1 0 0
def routeEntries (src : SegSrc) (dst : SegDst) (r : Route) : List (Nat × BitVec 16) := beatEntries src dst r ++ creditEntries dst r
def segEntries (g : Seg) : List (Nat × BitVec 16) := routeEntries g.src g.dst g.route

/-- The forward delay D of a segment (R298). -/
def forwardDelay (r : Route) : Nat := moves r + r.slacks.foldl (· + ·) 0 + 3 * (r.path.filter crosses).length

/-! ## Reservations (R53, R289) -/

/-- Whether two reservations of one cycle can be one: the same credit beat carries entries of several segments (R297). -/
def shares (a b : BitVec 16) : Bool := a == b && bit a.toNat 11

/-- A schedule with further reservations: none where two fall in one cycle, or a link comes above 12 of 16 (R53). -/
def reserve (t : Tbl (BitVec 16)) (es : List (Nat × BitVec 16)) : Option (Tbl (BitVec 16)) :=
  let all := es.foldl (fun (t : Option (Tbl (BitVec 16))) e => t.bind fun t =>
    let old := tget 0 t e.1
    if !bit old.toNat 15 then some (tset 0 t e.1 e.2) else if shares old e.2 then some t else none) (some t)
  all.filter fun t => es.all fun e => !isMeshLink (linkOf e.1) || decide (reservedOn t (linkOf e.1) ≤ 12)
/-- A schedule without the reservations of segments that leave it; those that others share stay. -/
def unreserve (t : Tbl (BitVec 16)) (es keep : List (Nat × BitVec 16)) : Tbl (BitVec 16) :=
  t.filter fun e => !(es.any fun x => x.1 == e.1) || keep.any fun x => x.1 == e.1

/-- A schedule in which segments have taken other ways (R287, R288): their old entries go, the new ones must find room. -/
def rewrite (t : Tbl (BitVec 16)) (rest old new : List Seg) : Option (Tbl (BitVec 16)) :=
  reserve (unreserve t (old.flatMap segEntries) (rest.flatMap segEntries)) (new.flatMap segEntries)

/-! ## Slack (R77 to R81) -/

/-- The first stage that can take up a hop, moved one step: toward 0 for a lengthening, toward 2 for a shortening (R78, R79). -/
def bumpSlack (longer : Bool) : List Nat → Option (List Nat)
  | [] => none
  | x :: t =>
    if longer then (if 0 < x then some ((x - 1) :: t) else (bumpSlack longer t).map (x :: ·))
    else if x < 2 then some ((x + 1) :: t) else (bumpSlack longer t).map (x :: ·)

/-- A path one hop longer or shorter at the end at which `source` says the moved unit stands: what no stage takes up stays with the
route (R81). -/
def adjust (r : Route) (source longer : Bool) : Route :=
  let excess := { r with extra := r.extra + if longer then 1 else -1 }
  if (longer && decide (r.extra < 0)) || (!longer && decide (0 < r.extra)) then excess
  else match bumpSlack longer (if source then r.slacks else r.slacks.reverse) with
    | some l => { r with slacks := if source then l else l.reverse }
    | none => excess

/-! ## Substitution (R926) -/

/-- A path out of a unit that moves one site toward output `d`: it loses a first hop that way, or gains one back. -/
def moveSource (r : Route) (d : Fin 8) : Route :=
  match r.path with
  | [] => r
  | h :: t =>
    if h.out = d then adjust { r with path := t, slackAt := r.slackAt.map (· - 1) } true false
    else match hopEnd { h with out := d } with
      | some b => adjust { r with path := { site := toSite b, out := opposite d } :: h :: t, slackAt := r.slackAt.map (· + 1) } true true
      | none => r

/-- A path into a unit that moves one site toward output `d`: it loses a last hop that came from there, or gains one. -/
def moveTarget (r : Route) (d : Fin 8) : Route :=
  match r.path.reverse with
  | [] => r
  | e :: t =>
    match hopEnd { e with out := d } with
    | none => r
    | some b =>
      match t with
      | p :: rest =>
        if p.site.val = b then
          adjust { r with path := (({ e with site := toSite b } : Hop) :: rest).reverse, slackAt := r.slackAt.map (min rest.length) } false false
        else adjust { r with path := (({ e with site := toSite b } : Hop) :: { e with out := d } :: p :: rest).reverse } false true
      | [] => adjust { r with path := [{ e with out := d }, { e with site := toSite b }] } false true

/-- The output toward a site, along X first: none at the site itself. -/
def toward (a b : Nat) : Option (Fin 8) :=
  if siteX a < siteX b then some 1 else if siteX b < siteX a then some 3
  else if siteY a < siteY b then some 2 else if siteY b < siteY a then some 0 else none

/-- A path whose source has moved to a site, one site at a time (R926; further than one site, assumption 85). -/
def walkSource (b : Nat) : Nat → Route → Route
  | 0, r => r
  | n + 1, r => match r.path.head?.bind fun h => toward h.site.val b with
    | some d => walkSource b n (moveSource r d)
    | none => r
/-- A path whose queue has moved to a site. -/
def walkTarget (b : Nat) : Nat → Route → Route
  | 0, r => r
  | n + 1, r => match r.path.getLast?.bind fun h => toward h.site.val b with
    | some d => walkTarget b n (moveTarget r d)
    | none => r

/-- A route between the sites at which its ends stand. -/
def fitRoute (src : SegSrc) (dst : SegDst) (r : Route) : Route :=
  let r := match src with | .port u _ => walkSource u.val 238 r | .slot _ _ => r
  match dst with | .ring u _ _ _ _ => walkTarget u.val 238 r | _ => r

/-- A segment whose ends at unit u have moved to v. -/
def moveSeg (g : Seg) (u v : Nat) : Seg :=
  let at_ := fun (w : Site) => if w.val = u then toSite v else w
  let src := match g.src with | .port w q => .port (at_ w) q | x => x
  let dst := match g.dst with | .ring w q b n c => .ring (at_ w) q b n c | x => x
  { g with src := src, dst := dst, route := fitRoute src dst g.route }

/-! ## Slack stages that a path must carry (R76) -/

/-- Hops that lead from one region into another. -/
def boundaryHops (l : List Hop) : List Nat :=
  (l.zipIdx.filter fun e => match hopEnd e.1 with | some v => regionOf v != regionOf e.1.site.val | none => false).map (·.2)
/-- The site at which a stage after a hop stands. -/
def stageSite (l : List Hop) (i : Nat) : Option Nat :=
  match l[i]? with
  | some h => some ((hopEnd h).getD h.site.val)
  | none => none
/-- Whether a path carries a stage at each boundary, or one at its queue's router within a region. -/
def slackHeld (l : List Hop) (slackAt : List Nat) : Bool :=
  ((boundaryHops l).all fun i => slackAt.contains i)
  && match l.head?, l.getLast? with
    | some a, some b => regionOf a.site.val != regionOf b.site.val
        || slackAt.any fun i => (stageSite l i).map gclusterOf == some (gclusterOf b.site.val)
    | _, _ => false

end Sys2Proof.Machine
end

