-- ==== Sys2Proof/Machine/Verify.lean ====
section
/-! DEFINITION. The loader's verifier (R256, R423, R692, R759, R927): it checks each claim of the certificate against the bundles, segments
and rows that the image fixes, and never searches for a proof of its own. An address that a register holds is the certificate's own
word: the image does not fix it (assumption 86). -/

namespace Sys2Proof.Machine

/-! ## Programs as the image fixes them -/

def unitOf (im : Image) (u : Site) : Option ImgUnit := im.units.find? fun i => i.logical == u
/-- The slots of a bundle of a unit; a bundle that the image does not list is all NOP. -/
def opsAt (i : ImgUnit) (k : Nat) : List SlotOp :=
  match i.bundles.find? fun b => b.1 == k with
  | some b => decodeBundle i.profile b.2.toNat
  | none => []
/-- Operations after which control does not simply go on: JMP, JAL, JR, HALT. -/
def leaves (op : SlotOp) : Bool := [0x80, 0x85, 0x86, 0x8F].contains op.opc
def isBranch (op : SlotOp) : Bool := decide (0x80 ≤ op.opc ∧ op.opc ≤ 0x86)
/-- Bundles that a transfer of control can reach: the start, the targets, and the bundles after a JAL, to which JR returns. -/
def entryPoints (i : ImgUnit) : List Nat :=
  i.start :: i.bundles.flatMap fun b => (decodeBundle i.profile b.2.toNat).flatMap fun op =>
    (if isBranch op && op.opc != 0x86 then [bits op.w 48 37] else []) ++ if op.opc == 0x85 then [b.1 + 1] else []
/-- Whether bundle `b` issues only after bundle `a` of the same run: no entry lies between, and no bundle from `a` on leaves. -/
def straight (i : ImgUnit) (a b : Nat) : Bool :=
  decide (a ≤ b) && !((entryPoints i).any fun t => decide (a < t ∧ t ≤ b)) && (upFrom a (b - a)).all fun k => !(opsAt i k).any leaves

/-- Whether an operation names its rows without a register: g0 reads 0. -/
def fixedAddr (op : SlotOp) : Bool :=
  match op.opc with
  | 0x40 => bits op.w 53 48 == 0 | 0x41 => bits op.w 53 48 == 0
  | 0xD0 => bits op.w 51 46 == 0 | 0xD1 => bits op.w 51 46 == 0
  | 0x8D => bits op.w 52 47 == 0
  | o => [0x20, 0x28, 0x30, 0x38, 0x3D].contains o
def staticReads (i : ImgUnit) (k : Nat) : List RowSet := ((opsAt i k).filter fixedAddr).flatMap fun op => readRows core0 op.opc op.w
def staticWrites (i : ImgUnit) (k : Nat) : List RowSet := ((opsAt i k).filter fixedAddr).flatMap fun op => writeRows core0 op.opc op.w
/-- Whether an operation reads rows of the core. -/
def readsRows (op : SlotOp) : Bool := [0x20, 0x28, 0x30, 0x3D, 0x40, 0xD0, 0x8A, 0x8B, 0x8C, 0x8D].contains op.opc
/-- Whether an operation carries results to the mesh (R692). -/
def carriesResult (op : SlotOp) : Bool := [0x8A, 0x8B, 0x8C, 0x8D].contains op.opc || (op.opc == 0x38 && bit op.w 31)

/-! ## Rows that others fill -/

/-- The rows of a unit that streams, the host and messages fill (R292, R398, R548). -/
def filledRows (im : Image) (i : ImgUnit) : List (Nat × Nat) :=
  (im.segs.filterMap fun g => match g.dst with
    | .ring u _ b n _ => if u = i.logical then some (b, n) else none
    | _ => none)
  ++ (match im.host with
      | some h => (h.intake.filter fun k => k.dst.toNat == i.logical.val).map fun k => (k.base, k.rows)
      | none => [])
  ++ i.chans.filterMap fun c => let x := { chan0 with entry := c.2 }
      if chRole x = 2 then some (chBase x, chRows x) else none

/-! ## Claims (R927) -/

/-- Whether a segment's ring at a unit holds rows that a counter counts. -/
def ringHolds (im : Image) (u : Site) (seg : Nat) (ctr : BitVec 6) (w : ClaimWrite) : Bool :=
  im.segs.any fun g => g.id == seg && match g.dst with
    | .ring v _ b n c => v == u && c == ctr && decide (b ≤ w.base ∧ w.base + w.rows ≤ b + n)
    | _ => false

/-- What keeps a write from landing before the last read of the rows' previous use. -/
def releaseHolds (im : Image) (u : Site) (ctr : BitVec 6) (w : ClaimWrite) : Bool :=
  match w.release with
  | .space v k c => match unitOf im v, unitOf im u with
    | some j, some i => ((opsAt j k).any fun op => op.opc == 0x88 && bits op.w 55 50 == c.toNat)
        && i.bundles.any fun b => (decodeBundle i.profile b.2.toNat).any fun op => op.opc == 0x8A
    | _, _ => false
  | .credit g => ringHolds im u g ctr w
  | .reserved g => ringHolds im u g ctr w && im.segs.any fun x => x.id == g && !x.frames.isEmpty

/-- Whether a bundle waits on a counter up to a target, or on a channel's word (R256, R423). -/
def waitsAt (i : ImgUnit) (k : Nat) (channel : Bool) (n target : Nat) : Bool :=
  (opsAt i k).any fun op =>
    if channel then op.opc == 0x89 && bits op.w 55 50 == 16 + n
    else op.opc == 0x88 && bits op.w 55 50 == n && (bit op.w 49 || bits op.w 42 11 == target)

/-- The first result-carrying operation of the block that a SIGCHK closes, going back from it. -/
def blockFirst (i : ImgUnit) (k : Nat) : Nat → Option Nat
  | 0 => none
  | n + 1 =>
    if k = 0 ∨ (opsAt i (k - 1)).any (fun op => isBranch op || op.opc == 0x8E || op.opc == 0x8F) then none
    else match blockFirst i (k - 1) n with
      | some j => some j
      | none => if (opsAt i (k - 1)).any carriesResult then some (k - 1) else none

/-- Whether the image bears a claim out. -/
def claimHolds (im : Image) : Claim → Bool
  | .read u b w ch n target writes =>
    match unitOf im u with
    | some i => straight i w b && (opsAt i b).any readsRows && waitsAt i w ch n.toNat target
        && (ch || (!writes.isEmpty && decide ((writes.map (·.rows)).foldl (· + ·) 0 ≤ target)))
        && writes.all (fun x => decide (x.base + x.rows ≤ rowCount i.profile) && releaseHolds im u n x)
    | none => false
  | .block u f k d =>
    match unitOf im u with
    | some i => ((opsAt i k).any fun op => op.opc == 0x8E) && (opsAt i f).any carriesResult && straight i f k
        && decide (k - f ≤ d) && decide (d ≤ if i.profile = .m then 18 else 24)
        && !((upFrom (f + 1) (k - f)).any fun j => (opsAt i j).any fun op => op.opc == 0x88 || op.opc == 0x89)
    | none => false
  | .fixed u r =>
    match unitOf im u with
    | some i => (i.rows.any fun x => x.row == r && x.fixed)
        && !((filledRows im i).any fun b => decide (b.1 ≤ r ∧ r < b.1 + b.2))
        && !(i.bundles.any fun b => (staticWrites i b.1).any fun w => rowsMeet w r 1)
    | none => false

/-- Whether the certificate names every obligation that the image shows. -/
def claimsComplete (im : Image) : Bool :=
  im.units.all fun i =>
    (i.bundles.all fun b =>
      (!((staticReads i b.1).any fun r => (filledRows im i).any fun b => rowsMeet r b.1 b.2)
        || im.claims.any fun c => match c with | .read u k _ _ _ _ _ => u == i.logical && k == b.1 | _ => false)
      && (!((opsAt i b.1).any fun op => op.opc == 0x8E) || match blockFirst i b.1 (bundleCount i.profile) with
          | some f => im.claims.any fun c => match c with | .block u g k _ => u == i.logical && k == b.1 && decide (g ≤ f) | _ => false
          | none => true))
    && i.rows.all fun r => !r.fixed || im.claims.any fun c => match c with | .fixed u k => u == i.logical && k == r.row | _ => false

end Sys2Proof.Machine
end

