-- ==== Sys2Proof/Machine/Loader.lean ====
section
/-! DEFINITION. The command ring's order (R572, R687), loading (R62 to R94, R233, R324, R325, R925), starting, unloading
(R276, R437, R572), loam copies (R480 to R482), the ends of drains (R321 to R323), and export (R486 to R490). -/

namespace Sys2Proof.Machine

/-! ## Commands of ring 8 (R572, R687) -/

def cmdWord (c : Cmd) (i : Nat) : Nat := bits c.words.toNat (64 * i + 63) (64 * i)
def cmdOp (c : Cmd) : Nat := bits (cmdWord c 0) 63 56
def cmdJob (c : Cmd) : Nat := bits (cmdWord c 0) 31 0

/-- The command whose turn it is (R687): the first of ring 8 past the exports and the firmware switch in progress, if it has
not begun. -/
def nextCmd (s : State) : Option Cmd :=
  match s.cmds.find? fun c => !(c.started && (cmdOp c == 1 || cmdOp c == 5)) with
  | some c => if c.started then none else some c
  | none => none
/-- The next command if it is of an operation; no LOAD, UNLOAD or EXPORT begins while a firmware switch waits (R848). -/
def nextOf (s : State) (op : Nat) : Option Cmd :=
  match nextCmd s with
  | some c => if cmdOp c = op ∧ (3 < op ∨ s.sec.waiting.isNone) then some c else none
  | none => none
/-- A command begins. -/
def beginCmd (s : State) (c : Cmd) : State :=
  { s with cmds := s.cmds.map fun x => if x.index = c.index then { x with started := true } else x }
/-- A command completes (R564). -/
def endCmd (s : State) (c : Cmd) (status reason : Nat) : State :=
  postCompletion { s with cmds := s.cmds.filter fun x => x.index != c.index } 8 c.index status reason
    (BitVec.ofNat 64 (cmdJob c)) 0 s.clk.master
/-- A command in progress of an operation and placement. -/
def begunFor (s : State) (op p : Nat) : Option Cmd :=
  s.cmds.find? fun c => c.started && cmdOp c == op && bits (cmdWord c 0) 55 53 == p

/-! ## The checks of a load (R93) -/

def resident (s : State) : List (Nat × Placement) := s.plcs.filter fun e => e.2.state != .absent

/-- Whether a unit of an image finds its core (R85, R93): seated, of the image's profile, and used by no placement. -/
def unitSeated (s : State) (i : ImgUnit) : Bool :=
  match seatOf s i.logical.val with
  | some v => isCoreKind (kindOf s v) && profileOf (kindOf s v) == i.profile && (getCore s v).plc.isNone
  | none => false

/-- R86. -/
def pinOk (s : State) (i : ImgUnit) : Bool :=
  match i.pinned with
  | none => true
  | some v => isCoreKind (kindOf s v.val) && profileOf (kindOf s v.val) == i.profile && !isFenced s v.val
      && !isDetained s v.val && seatOf s i.logical.val == some v.val

/-- The channel entry of a peer (R399): in the image, or in a core of a resident placement; none where the peer lies in
neither. -/
def peerEntry (s : State) (im : Image) (u n : Nat) : Option Word :=
  match im.units.find? fun i => physOf s i.logical.val == u with
  | some i => some ((((i.chans.find? fun c => c.1 == n)).map (·.2)).getD 0)
  | none => if (getCore s u).plc.isSome then some (getChan (getCore s u) n).entry else none

/-- R399. -/
def chanOk (s : State) (im : Image) (i : ImgUnit) (n : Nat) (e : Word) : Bool :=
  let x := { chan0 with entry := e }
  if chRole x = 0 then true
  else match siteOfId s (chPeer x) with
    | none => true
    | some u => match peerEntry s im u (chPeerCh x) with
      | none => true
      | some w =>
        let y := { chan0 with entry := w }
        chRole x + chRole y == 3 && siteOfId s (chPeer y) == some (physOf s i.logical.val) && chPeerCh y == n
          && chRows x == chRows y

/-- The least rows of an intake ring (R552). -/
def intakeNeed (h : HostSection) (e : Nat) (k : Intake) : Nat :=
  3 * (ceilDiv (h.nMax * k.bytes) 512 + if e = 0 ∧ h.lead then 1 else 0)
/-- R548, R552. -/
def intakeOk (s : State) (h : HostSection) (e : Nat) (k : Intake) : Bool :=
  let rows := match siteOfId s k.dst.toNat with
    | some u => rowCount (profileOf (kindOf s u))
    | none => 0
  decide (k.base + k.rows ≤ rows) && decide (intakeNeed h e k ≤ k.rows)

/-- The rows of a segment's input ring, 1 to 4,096 and within its core (R292). -/
def segRingOk (s : State) (g : ImgSeg) : Bool :=
  match g.dst with
  | .ring u _ base n _ => decide (1 ≤ n ∧ n ≤ 4096) && decide (base + n ≤ rowCount (profileOf (kindOf s (physOf s u.val))))
  | _ => true

/-- Scratchpad rows (R93, R292, R398, R548, R552), and at most one guarded range per counter (R258, assumption 83). -/
def scratchOk (s : State) (im : Image) : Bool :=
  (im.units.all fun i =>
    decide (i.rowsUsed ≤ rowCount i.profile) && (i.rows.all fun r => decide (r.row < rowCount i.profile))
      && decide (i.guards.map (·.counter)).Nodup
      && i.chans.all fun c => let x := { chan0 with entry := c.2 }
          chRole x != 2 || decide (chBase x + chRows x ≤ rowCount i.profile))
  && im.segs.all (segRingOk s)
  && (match im.host with
      | some h => h.intake.zipIdx.all fun k => intakeOk s h k.2 k.1
      | none => true)

/-- Whether the M-core of an image stands at the region's other matrix cluster, so that its variant runs (R83). -/
def varied (s : State) (i : ImgUnit) : Bool := i.profile == .m && physOf s i.logical.val != i.logical.val
/-- The segments of an image as the seating has them: those that a variant changes are the variant's (R83). -/
def liveSegs (s : State) (im : Image) : List ImgSeg :=
  let vs := im.units.filterMap fun i => if varied s i then i.variant else none
  im.segs.map fun g => ((vs.flatMap (·.segs)).find? fun x => x.id == g.id).getD g

def dataCap (d : BitVec 32) : Nat := bits d.toNat 24 18
def tokenCap (d : BitVec 16) : Nat := bits d.toNat 10 6

/-- The capacity that a segment's source starts with as credits (R296). -/
def segCap (im : Image) (g : ImgSeg) : Nat :=
  match g.dst with
  | .ring _ _ _ n _ => n
  | .data c q => ((im.dataQ.find? fun d => d.1 == c && d.2.1 == q).map fun d => dataCap d.2.2).getD 0
  | .token c q => ((im.tokenQ.find? fun d => d.1 == c && d.2.1 == q).map fun d => tokenCap d.2.2).getD 0

/-- The way of a segment as the image gives it, slack stages at 1 (R77, R325). -/
def imageRoute (g : ImgSeg) : Route :=
  { path := g.path, frames := g.frames, back := g.credits, slackAt := g.slackAt, slacks := g.slackAt.map fun _ => 1, extra := 0 }

/-- A segment in service, at the physical sites at which its units stand; a unit that a delta seats elsewhere is met by the rewriting of
R926 (assumption 85). -/
def mkSeg (s : State) (p : Nat) (im : Image) (g : ImgSeg) : Seg :=
  let src := match g.src with | .port u q => .port (toSite (physOf s u.val)) q | x => x
  let dst := match g.dst with | .ring u q b n c => .ring (toSite (physOf s u.val)) q b n c | x => x
  { plc := Fin.ofNat 8 p, id := g.id, src := src, dst := dst, cap := segCap im g, credits := segCap im g, owed := 0,
    buf := [], transit := [], beats := 0, route := fitRoute src dst (imageRoute g), tight := false }
def imageSegs (s : State) (p : Nat) (im : Image) : List Seg := (liveSegs s im).map (mkSeg s p im)

/-- Whether a segment leaves or reaches a core. -/
def touches (u : Nat) (g : Seg) : Bool :=
  (match g.src with | .port w _ => w.val == u | _ => false) || match g.dst with | .ring w _ _ _ _ => w.val == u | _ => false

/-- The pairs that R288 checks: each unit of a placement with each spare of its kind one site away along its row or column. -/
def sparePairs (s : State) (im : Image) : List (Site × Site) :=
  im.units.flatMap fun i =>
    let u := physOf s i.logical.val
    ((ledger s (kindCode (kindOf s u)) (regionOf u)).filter (oneAway u)).map fun v => (toSite u, toSite v)

/-- Whether the substitution of a pair finds room in a schedule that holds `own` besides the residents' segments (R288). -/
def pairOk (s : State) (t : Tbl (BitVec 16)) (own : List Seg) (q : Site × Site) : Bool :=
  let old := own.filter (touches q.1.val)
  (rewrite t (s.segs ++ own.filter fun g => !touches q.1.val g) old (old.map fun g => moveSeg g q.1.val q.2.val)).isSome

/-- Whether a segment's path is one (R282), with distinct frame cycles. -/
def pathOk (g : ImgSeg) : Bool :=
  connected g.path && startsAt g.src g.path && endsAt g.dst g.path && !g.frames.isEmpty && decide g.frames.Nodup && decide g.credits.Nodup
/-- Whether the link schedules of an image are those that its paths reserve, and no other entry has a reserved bit set (R15, R282, R283). -/
def schedOk (im : Image) : Bool :=
  let need := im.segs.flatMap fun g => routeEntries g.src g.dst (imageRoute g)
  (need.all fun e => im.sched.contains e)
  && im.sched.all fun e => if bit e.2.toNat 15 then need.contains e else !bit e.2.toNat 0

/-- Link reservations (R53, R283, R288, R669). -/
def linksOk (s : State) (p : Nat) (im : Image) : Bool :=
  let own := imageSegs s p im
  (im.segs.all pathOk) && schedOk im
  && (own.all fun g => g.route.path.all fun h =>
      decide (h.out.val < 6) || tget .full s.brg.links (edgeLinkKey h.site.val (h.out.val - 6)) == .full)
  && match reserve s.sched (own.flatMap segEntries) with
    | some t => (sparePairs s im).all (pairOk s t own)
    | none => false

/-- The high-water mark that the static report gives a segment's queue (R63). -/
def markOf (im : Image) (id : Nat) : Nat := ((im.report.paths.find? fun q => q.seg == id).map (·.mark)).getD 0
/-- Whether a queue or ring covers its mark, the credit round trip and the path skew (R53, R299). -/
def capOk (im : Image) (g : ImgSeg) : Bool :=
  let batch := match g.dst with | .ring _ _ _ _ _ => g.batch | _ => 0
  decide (markOf im g.id ≤ segCap im g) && decide (1 ≤ g.interval)
    && decide (ceilDiv (2 * forwardDelay (imageRoute g) + 19 + g.wait) g.interval + batch ≤ segCap im g)

/-- Queue descriptors, steering elements and marks (R87, R294, R295, R299, R300, R440). -/
def queuesOk (s : State) (im : Image) : Bool :=
  (im.dataQ.all fun q => let d := q.2.2.toNat
    bit d 31 && decide (1 ≤ dataCap q.2.2) && decide (bits d 30 25 + dataCap q.2.2 ≤ 64) && bits d 17 0 == 0
      && (tfind (getSw s q.1.val).dq q.2.1.toNat).isNone
      && decide ((getSw s q.1.val).dq.foldl (fun a e => a + dataCap e.2.desc) 0
        + (im.dataQ.filter fun r => r.1 == q.1).foldl (fun a r => a + dataCap r.2.2) 0 ≤ 64))
  && (im.tokenQ.all fun q => let d := q.2.2.toNat
    bit d 15 && decide (1 ≤ tokenCap q.2.2) && decide (bits d 14 11 + tokenCap q.2.2 ≤ 16) && bits d 5 0 == 0
      && (tfind (getSw s q.1.val).tq q.2.1.toNat).isNone
      && decide ((getSw s q.1.val).tq.foldl (fun a e => a + tokenCap e.2.desc) 0
        + (im.tokenQ.filter fun r => r.1 == q.1).foldl (fun a r => a + tokenCap r.2.2) 0 ≤ 16))
  && (im.elements.all fun q => let d := q.2.2.toNat
    decide (elKind d ≤ 4) && (elKind d == 0 || bits d 59 58 != 0) && bits d 57 56 == 0 && bits d 12 0 == 0
      && (tfind (getSw s q.1.val).el q.2.1.toNat).isNone)
  && (im.segs.all (capOk im))
  && im.chanPeaks.all fun c => decide (c.2.2 + c.2.1 ≤ c.1 + 1)

/-- Whether a loam copy lies in the image area and on tiles in service (R480, R925). -/
def loamOk (s : State) (stack : Nat) (off : Nat) (mask : BitVec 16) (rows : Nat) : Bool :=
  let l := maskTiles mask
  !l.isEmpty && decide (off + ceilDiv rows l.length ≤ imageRows) && l.all fun j => !isFenced s (tileSite (stack * 16 + j))

/-- Declared channels and loam (R87, R464, R484, R925). -/
def channelsOk (s : State) (im : Image) : Bool :=
  let sum := fun (t : Nat) (f : ImgChannel → Nat) =>
    (resident s).foldl (fun a e => match e.2.img with
      | some (x : Image) => (x.channels.filter fun c => c.tile.val == t).foldl (fun a c => a + f c) a
      | none => a) ((im.channels.filter fun c => c.tile.val == t).foldl (fun a c => a + f c) 0)
  (im.channels.all fun c => !isFenced s (tileSite c.tile.val) && decide (sum c.tile.val (·.occupancy) ≤ 1000000)
      && decide (sum c.tile.val (·.outstanding) ≤ 96))
  && im.loam.all fun b => loamOk s b.stackA.val b.offA b.maskA b.rows && loamOk s b.stackB.val b.offB b.maskB b.rows

/-- The CRC of a loam copy's rows as they stand in HBM (R369, R481). -/
def loamCrc (s : State) (stack off : Nat) (mask : BitVec 16) (rows : Nat) : BitVec 32 :=
  let body := (upFrom 0 rows).foldr (fun r acc => memRead s.hbm.cells (hbmAddr stack (loamRow s off mask r)) 512 + acc * 2 ^ 4096) 0
  BitVec.ofNat 32 (crc32c body (512 * rows))

/-- The verifier (R256, R399, R548, R692, R759, R927): every claim holds, and none is missing. -/
def verifyOk (s : State) (im : Image) : Bool :=
  (im.claims.all (claimHolds im)) && claimsComplete im
  && (im.units.all fun i => i.chans.all fun c => chanOk s im i c.1 c.2)
  && (match im.host with
      | some h => h.intake.all fun k => decide (k.offset + k.bytes ≤ h.inBytes)
      | none => true)

/-- Die crossings of a minimal path. -/
def crossings (u v : Nat) : Nat :=
  (max (siteX u / 40) (siteX v / 40) - min (siteX u / 40) (siteX v / 40)) + (max (siteY u / 40) (siteY v / 40) - min (siteY u / 40) (siteY v / 40))
/-- The minimum latency of a non-stream input of the core at u (R66, R467). -/
def minLatency (s : State) (u : Nat) (a : Access) : Nat :=
  match a with
  | .dma t n => let v := tileSite t.val
                2 * hopCount u v + 3 * (2 * crossings u v) + 120 + ceilDiv (64 * n) 15
  | .gather t b r n o => let v := tileSite t.val
                         let q := physOf s b.val
                         r + hopCount q v + hopCount v u + 3 * (crossings q v + crossings v u) + 128 + ceilDiv (8 * n) 15 + 4 * o
  | .packet f => hopCount (physOf s f.val) u + 24
/-- Whether the input that a counter counts comes over a stream, from the host or by a hall pass, and so needs no bound (R53, R65). -/
def unbounded (im : Image) (i : ImgUnit) (c : Nat) : Bool :=
  (im.segs.any fun g => match g.dst with | .ring u _ _ _ k => u == i.logical && k.toNat == c | _ => false)
  || (match im.host with
      | some h => h.intake.any fun k => k.dst.toNat == i.logical.val && k.counter.toNat == c
      | none => false)
  || i.passes.any fun k => k.toNat == c
/-- The counters on which a unit's program waits. -/
def waitedOn (i : ImgUnit) : List Nat :=
  i.bundles.flatMap fun b => (decodeBundle i.profile b.2.toNat).filterMap fun op => if op.opc = 0x88 then some (bits op.w 55 50) else none
/-- Declared arrival bounds (R53, R65, R66). -/
def boundsOk (s : State) (im : Image) (i : ImgUnit) : Bool :=
  (i.bounds.all fun b => decide (minLatency s (physOf s i.logical.val) b.access ≤ b.bound))
  && (waitedOn i).all fun c => unbounded im i c || i.bounds.any fun b => b.counter.toNat == c

/-- Whether the array and the matrix-vector path own the check column in overlapping cycles (R53). -/
def ownersMeet (l : List (Bool × Nat × Nat)) : Bool :=
  l.any fun a => l.any fun b => a.1 && !b.1 && decide (a.2.1 < b.2.2 ∧ b.2.1 < a.2.2)

/-- Whether a program fits the instruction store. -/
def storeOk (p : Profile) (start : Nat) (bundles : List (Nat × BitVec 512)) : Bool :=
  decide (start < bundleCount p) && bundles.all fun b => decide (b.1 < bundleCount p)

/-- Whether the static report is the image's (R59, R62, R64): its identifier, and each figure that the image states too; and whether the
cadences are legal (assumption 83). -/
def reportOk (s : State) (im : Image) : Bool :=
  let r := im.report
  r.id == im.stampedId
  && (im.units.all fun i => decide (4 ≤ i.cadence ∧ i.cadence ≤ 65535) && (i.profile != .m || i.cadence % 4 == 0)
      && (r.stages.any fun g => g.sites.contains i.logical && g.cadence == i.cadence)
      && r.perUnit.any fun x => x.unit == i.logical && x.rows == i.rowsUsed && x.free == i.free && x.owners == i.owners
        && x.bounds == i.bounds.map fun b => (b.counter, b.bound, b.bound - minLatency s (physOf s i.logical.val) b.access))
  && im.segs.all fun g => r.paths.any fun x => x.seg == g.id && x.cap == segCap im g && x.slacks == g.slackAt.length && x.setting == 1

/-- The conditions of R93, in the order of their codes: each code with whether it applies. A loam copy that fails its CRC is answered with
0x0A, and what else the contract asks without naming a code is laid under the code nearest to it (assumption 83). -/
def loadChecks (s : State) (p : Nat) (im : Image) : List (Nat × Bool) :=
  [(0x01, s.brg.below && !s.brg.accepted),
   (0x02, (getPlc s p).state != .absent),
   (0x03, !reportOk s im),
   (0x04, !verifyOk s im),
   (0x05, !(im.units.all (unitSeated s))),
   (0x06, !scratchOk s im),
   (0x07, im.units.any fun i => !storeOk i.profile i.start i.bundles || match i.variant with
      | some (v : Variant) => !storeOk i.profile v.start v.bundles
      | none => false),
   (0x08, !linksOk s p im),
   (0x09, !queuesOk s im),
   (0x0A, !channelsOk s im || im.loam.any fun b => loamCrc s b.stackA.val b.offA b.maskA b.rows != b.crcA),
   (0x0B, im.units.any fun i => !boundsOk s im i),
   (0x0C, im.units.any fun i => ownersMeet i.owners),
   (0x0D, im.segs.any fun g => !slackHeld g.path g.slackAt),
   (0x0E, im.units.any fun i => i.profile == .m && i.variant.isNone && shareOf s 2 (regionOf i.logical.val) == 1),
   (0x0F, decide (16384 < im.report.maxInFlight)),
   (0x10, !(im.units.all (pinOk s)))]

/-- The code that refuses a load: the lowest that applies (R92). -/
def loadCode (s : State) (p : Nat) (im : Image) : Option Nat :=
  ((loadChecks s p im).find? (·.2)).map (·.1)

/-! ## Writing units and routers (R233, R325) -/

/-- Every row of a core that is not kept written with a valid code: zeros, but for the rows given (R233, R760). A kept row stays as
it is stored, with its errors and marks. -/
def fillKeeping (s : State) (u : Nat) (kept : Nat → Bool) (rows : List (Nat × Row)) : State :=
  let a := scratchAddr u 0
  let n := rowCount (profileOf (kindOf s u)) * 512
  let st : Store := {
    cells := s.scratch.cells.filter fun c => decide (c.1 < a ∨ a + n ≤ c.1) || kept ((c.1 - a) / 512)
    poison := s.scratch.poison.filter fun k => decide (k < a / 16 ∨ (a + n) / 16 ≤ k) || kept ((k - a / 16) / 32)
    errs := s.scratch.errs.filter fun e => decide (e.1 < a / 16 ∨ (a + n) / 16 ≤ e.1) || kept ((e.1 - a / 16) / 32) }
  { s with scratch := rows.foldl (fun st r => storeWrite st (scratchAddr u r.1) r.2.toNat false) st }
/-- Every row of a core written (R233). -/
def fillRows (s : State) (u : Nat) (rows : List (Nat × Row)) : State := fillKeeping s u (fun _ => false) rows

/-- A receive channel reset (R432, R433): its generation is 0 at the first load since start-up, one more otherwise; its counters stay
(R438). -/
def resetRecv (x : Chan) : Chan :=
  { chan0 with entry := x.entry, gen := if x.seen then x.gen + 1 else 0, seen := true, cDelivered := x.cDelivered, cDropped := x.cDropped,
               cStalled := x.cStalled }

/-- A channel as the loader writes its entry: counters cleared, generation by role (R397, R432, R438). -/
def loadChan (old : Chan) (e : Word) : Chan :=
  let x := { chan0 with entry := e, gen := old.gen, seen := old.seen }
  if chRole x = 2 then resetRecv x else { x with seen := true }

/-- A send channel set from its peer (R434). -/
def sendFromPeer (s : State) (x : Chan) : Chan :=
  if chRole x ≠ 1 then x
  else match siteOfId s (chPeer x) with
    | some v => let y := getChan (getCore s v) (chPeerCh x)
                { x with gen := y.gen, nextSeq := y.expected, sendState := .ready, inFlight := 0 }
    | none => { x with sendState := .ready, inFlight := 0 }

/-- Setting the send channels of a core that has been loaded or restarted (R434). -/
def syncSends (s : State) (u : Nat) : State :=
  modCore s u fun c => { c with chans := tmap chan0 (fun _ x => sendFromPeer s x) c.chans }

/-- What the proctor does to every send channel that names a reset receive channel (R429, R433). -/
def stalePeers (s : State) (u n : Nat) (gen : BitVec 8) : State :=
  s.cores.foldl (fun s e =>
    let stale := fun (x : Chan) =>
      if chRole x = 1 ∧ siteOfId s (chPeer x) = some u ∧ chPeerCh x = n then
        { x with gen := gen, nextSeq := 0, sendState := .refused, lastRef := 0x63 }
      else x
    modCore s e.1 fun c => { c with chans := tmap chan0 (fun _ x => stale x) c.chans }) s
def stalePeersOf (s : State) (u : Nat) : State :=
  (getCore s u).chans.foldl (fun s e => if chRole e.2 = 2 then stalePeers s u e.1 e.2.gen else s) s

/-- The operations of an endpoint after its core is loaded or restarted: what has not left is gone, and what is under way
reports to no slot or channel any more. -/
def detachOps (e : Endpoint) : Endpoint :=
  let ops := (e.ops.filter fun o => e.recs.any fun r => r.op == o.id).map fun o =>
    { o with kind := .write, slot := none, left := (e.recs.filter fun r => r.op == o.id).length }
  { e with outq := [], ops := ops }

/-- The program of a unit: its variant's at the other matrix cluster (R83). -/
def programOf (s : State) (i : ImgUnit) : Nat × List (Nat × BitVec 512) :=
  match (if varied s i then i.variant else none) with
  | some (v : Variant) => (v.start, v.bundles)
  | none => (i.start, i.bundles)

/-- A core as the loader leaves it for a unit of an image: arrival counters and every register 0 (R253, R325). -/
def loadedCore (s : State) (p : Nat) (strict : Bool) (i : ImgUnit) (old : Core) (u : Nat) : Core :=
  let (start, bundles) := programOf s i
  let chans := i.chans.foldl (fun t e => tset chan0 t e.1 (loadChan (getChan old e.1) e.2)) old.chans
  { core0 with
    profile := profileOf (kindOf s u), plc := some (Fin.ofNat 8 p), chans := chans,
    istore := bundles.foldl (fun t b => tset 0 t b.1 b.2) [], startPc := start, pc := start, bounds := i.bounds,
    strict := strict, guards := i.guards, corrected := old.corrected, scrub := old.scrub, scrubAt := old.scrubAt, logical := some i.logical }

/-- The M-core units after a load: empty, with the feeder map and the array's own faults kept. -/
def freshM (m : MCore) : MCore := { mcore0 with map0 := m.map0, map1 := m.map1, arrayBad := m.arrayBad }

/-- Writing one unit (R325). -/
def loadUnit (s : State) (p : Nat) (strict : Bool) (i : ImgUnit) : State :=
  let u := physOf s i.logical.val
  let s := fillRows s u (i.rows.map fun r => (r.row, r.data))
  let s := setCore s u (loadedCore s p strict i (getCore s u) u)
  let s := if profileOf (kindOf s u) = .m then modM s u freshM else s
  modEp s u detachOps

/-- Port bindings and output slots of a segment (R290, R292, R300). -/
def bindSeg (s : State) (g : Seg) : State :=
  let s := match g.src with
    | .port u q => modCore s u.val fun c => { c with outPorts := tput c.outPorts q.toNat (g.plc, g.id) }
    | .slot c o => let w := getSw s c.val
                   setSw s c.val { w with out := tput w.out o.toNat (g.plc, g.id) }
  match g.dst with
  | .ring u q b n ctr => modCore s u.val fun c =>
    { c with inRings := tput c.inRings q.toNat {
        plc := g.plc, seg := g.id, base := b, n := n, counter := ctr.toNat, next := 0, counts := [], prevTarget := none } }
  | .data c q => let w := getSw s c.val
                 setSw s c.val { w with dq := w.dq.map fun e => if e.1 = q.toNat then (e.1, { e.2 with seg := g.id }) else e }
  | .token c q => let w := getSw s c.val
                  setSw s c.val { w with tq := w.tq.map fun e => if e.1 = q.toNat then (e.1, { e.2 with seg := g.id }) else e }

/-- Writing the routers and switches (R325). -/
def loadRouters (s : State) (p : Nat) (im : Image) : State :=
  let q := Fin.ofNat 8 p
  let gs := imageSegs s p im
  let s := { s with sched := (reserve s.sched (gs.flatMap segEntries)).getD s.sched }
  let s := im.dataQ.foldl (fun s d => let w := getSw s d.1.val
    setSw s d.1.val { w with dq := tput w.dq d.2.1.toNat { desc := d.2.2, plc := q, seg := 0, rows := [] } }) s
  let s := im.tokenQ.foldl (fun s d => let w := getSw s d.1.val
    setSw s d.1.val { w with tq := tput w.tq d.2.1.toNat { desc := d.2.2, plc := q, seg := 0, rows := [] } }) s
  let s := im.elements.foldl (fun s d => let w := getSw s d.1.val
    setSw s d.1.val { w with el := tput w.el d.2.1.toNat { desc := d.2.2, plc := q, lap := BitVec.ofNat 8 (bits d.2.2.toNat 20 13) } }) s
  gs.foldl bindSeg { s with segs := s.segs ++ gs }

/-- A load that no check refuses (R325): units, routers, and start bundles armed. -/
def writeLoad (s : State) (p : Nat) (strict : Bool) (im : Image) : State :=
  let pairs := sparePairs s im
  let s := im.units.foldl (fun s i => loadUnit s p strict i) s
  let s := loadRouters s p im
  let us := im.units.map fun i => physOf s i.logical.val
  let s := us.foldl stalePeersOf s
  let s := us.foldl syncSends s
  let s := { s with clk := { s.clk with setOk := false } }
  setPlc s p { plc0 with state := .loaded, img := some im, strict := strict, lastEvent := s.clk.master,
                         armed := some s.clk.master, checked := pairs,
                         protects := !im.loam.isEmpty }

/-- The LOAD command (R572): COMMITTED later, at the start cycle; DISCARDED with the loader's code. -/
def loadCmd (s : State) (im : Image) : State :=
  match nextOf s 2 with
  | none => s
  | some c =>
    let p := bits (cmdWord c 0) 55 53
    match loadCode s p im with
    | some code => endCmd s c 1 code
    | none => writeLoad (beginCmd s c) p (bit (cmdWord c 0) 52) im

/-! ## Start, stop and unload -/

/-- The start of a placement: start bundles at cycle 0 of each core, rings, credits and lap counters as at their start
(R293, R296, R300). -/
def startPlacement (s : State) (p : Nat) : State :=
  let s := modCores s p fun c => { c with run := (if c.run = .fenced then .fenced else .running), pc := c.startPc, cycle := 0,
                                          startTick := s.clk.master, lost := 0, dues := [], asked := c.counters,
                                          inRings := c.inRings.map fun e => (e.1, { e.2 with next := 0, counts := [], prevTarget := none }) }
  let s := { s with
    segs := s.segs.map fun g => if g.plc.val = p then { g with credits := g.cap, owed := 0 } else g,
    switches := tmap switch0 (fun _ w => { w with el := w.el.map fun e =>
      (e.1, if e.2.plc.val = p then { e.2 with lap := BitVec.ofNat 8 (bits e.2.desc.toNat 20 13) } else e.2) }) s.switches }
  let s := pauseDoors s p false
  modPlc s p fun x => { x with state := .running, armed := none, start := s.clk.master, gatesShut := false, nextSample := 0, batches := [], lowK := [],
                               acceptN := [], acceptT := [], acceptK := [], left := 0, watchdog := 0, drain := none, held := false, intakePos := [] }

/-- An armed placement starts at the next T tick after it was armed (R325); a LOAD in progress completes. -/
def startArmed (s : State) (p : Nat) : State :=
  match (getPlc s p).armed with
  | none => s
  | some t =>
    if t = s.clk.master ∨ s.clk.gated then s
    else
      let s := startPlacement s p
      match begunFor s 2 p with
      | some c => endCmd s c 0 0
      | none => s

/-- A core that a placement leaves (R276, R437): its channels are off and keep their generations. -/
def unloadedCore (c : Core) : Core :=
  { core0 with profile := c.profile, run := (if c.run = .fenced then .fenced else .stopped), corrected := c.corrected, scrub := c.scrub,
               scrubAt := c.scrubAt, istoreErrs := c.istoreErrs,
               chans := tmap chan0 (fun _ x => { chan0 with gen := x.gen, seen := x.seen }) c.chans }

/-- Releasing what a placement holds (R276, R437, R925). -/
def releasePlacement (s : State) (p : Nat) : State :=
  let us := coresOf s p
  let mine := fun (q : Plc) => q.val == p
  let gone := us.flatMap fun u => (getCore s u).passes.map fun (h : HallPass) => h.number
  let s := us.foldl (fun s u => modEp (modM (modCore s u unloadedCore) u freshM) u detachOps) s
  let s := { s with
    passDir := s.passDir.filter fun d => !gone.contains d.1
    segs := s.segs.filter fun g => !mine g.plc
    sched := unreserve s.sched ((s.segs.filter fun (g : Seg) => mine g.plc).flatMap segEntries) ((s.segs.filter fun (g : Seg) => !mine g.plc).flatMap segEntries)
    switches := tmap switch0 (fun _ w => {
      dq := w.dq.filter fun e => !mine e.2.plc
      tq := w.tq.filter fun e => !mine e.2.plc
      el := w.el.filter fun e => !mine e.2.plc
      out := w.out.filter fun e => !mine e.2.1 }) s.switches }
  setPlc { s with rcv := { s.rcv with runs := tset none s.rcv.runs p none, count := tset 0 s.rcv.count p 0 } } p plc0

/-- The end of an unload (R572). -/
def finishUnload (s : State) (p : Nat) : State :=
  let s := discardDescs s p 0x22 true
  let s := releasePlacement s p
  match begunFor s 3 p with
  | some c => endCmd s c 0 0
  | none => s

/-- Descriptors fetched and not delivered complete with NOT_RESIDENT (R573). -/
def dropUndelivered (s : State) (p : Nat) : State :=
  let l := getDescs s p
  flushDescs (setDescs s p (l.map fun d => if d.state = .fetched then discardDesc s 0x22 d else d)) p l.length

/-- The UNLOAD command (R572, R573): a context drain first, where the placement runs; it waits for a recovery or a nap. -/
def unloadCmd (s : State) : State :=
  match nextOf s 3 with
  | none => s
  | some c =>
    let p := bits (cmdWord c 0) 55 53
    match (getPlc s p).state with
    | .absent => endCmd s c 0 0
    | .stopped => finishUnload (beginCmd s c) p
    | .running => startContextDrain (dropUndelivered (beginCmd s c) p) p true
    | _ => s

/-! ## Ends of drains (R321 to R323) -/

/-- The reason that a fault drain gives its descriptors (R763). -/
def drainReason (s : State) (p : Nat) : Nat := if tget 0 s.rcv.causes p = 3 then 0x26 else 0x20

/-- The stop reaches the gates first: descriptors in flight will complete as DISCARDED (R320, R763); the completions are
written in the REPORT step, or at once where no recovery runs. -/
def decideStopped (s : State) (p : Nat) : State :=
  let l := getDescs s p
  let lost := l.foldl (fun a d => if descLive d then a + d.n else a) 0
  let s := setDescs s p (l.map fun d => if descLive d then discardDesc s (drainReason s p) d else d)
  modPlc s p fun x => { x with discarded := x.discarded + BitVec.ofNat 64 lost, changed := x.changed || lost != 0 }

/-- What follows the end of a drain: the unload, the nap or the shutdown that asked for it, if any (R572, R625). -/
def afterDrain (s : State) (p : Nat) (d : DrainSt) : State :=
  let s := if d.fault then decideStopped s p else s
  let s := finishDrain s p d.fault
  let s := if d.fault ∧ (tget none s.rcv.runs p).isNone then flushDescs s p (getDescs s p).length else s
  if d.unload then finishUnload s p
  else if s.pwr.phase = .enteringNap ∨ s.pwr.phase = .shuttingDown then modPlc s p fun x => { x with state := .napping }
  else s

/-- R321. -/
def drainEnd (s : State) (p : Nat) : State :=
  match (getPlc s p).drain with
  | some d => if drainDone s p d then afterDrain s p d else s
  | none => s

/-- R321, R322. -/
def drainLimit (s : State) (p : Nat) : State :=
  match (getPlc s p).drain with
  | some d => if drainForced s p d then afterDrain s p d else s
  | none => s

/-- R768: 4 ms are 400,000 T ticks. -/
def drainTimeout (s : State) (p : Nat) : State :=
  match (getPlc s p).drain, tget none s.rcv.runs p with
  | some d, some r =>
    if !d.fault ∧ r.planned ∧ 400000 ≤ (s.clk.master - d.start).toNat then startFaultDrain s p s.clk.master else s
  | _, _ => s

/-! ## Loam (R480 to R482) -/

/-- R481: each block whose copy B fails posts an event, and its unit is left with one copy. -/
def checkCopyB (s : State) (p : Nat) : State :=
  let x := getPlc s p
  match x.img, x.copyB with
  | some im, none =>
    if x.state = .running then
      let bad := im.loam.filter fun b => loamCrc s b.stackB.val b.offB b.maskB b.rows != b.crcB
      let s := modPlc s p fun x => { x with copyB := some bad.isEmpty, loamOne := bad.map (·.unit) }
      bad.foldl (fun s b => postEvent s 0x04 p [BitVec.ofNat 64 b.unit.toNat]) s
    else s
  | _, _ => s

/-- The rows of a block that hold the instruction store (R925). -/
def istoreRows (p : Profile) : Nat := match p with | .s => 32 | .v => 64 | .m => 128
def bundleBytes (p : Profile) : Nat := match p with | .s => 32 | _ => 64

/-- Row r of a loam block as a reload takes it (R482, R485): from copy A, from copy B where A delivers it poisoned; none
where no copy delivers it. -/
def blockRow (s : State) (p : Nat) (b : LoamEntry) (r : Nat) : State × Option Nat :=
  let ra := loamRow s b.offA b.maskA r
  let ta := rowTile b.stackA.val ra
  let rb := loamRow s b.offB b.maskB r
  let tb := rowTile b.stackB.val rb
  let fromB := fun (s : State) =>
    if isFenced s (tileSite tb) || (getPlc s p).loamOne.contains b.unit then (s, none)
    else
      let (s, rd) := tileRead s tb rb 0
      (s, if rd.pois = 0 then some rd.data else none)
  if isFenced s (tileSite ta) then fromB s
  else
    let (s, rd) := tileRead s ta ra 0
    if rd.pois = 0 then (s, some rd.data) else fromB s

/-- Rows first to first + n of a block; none where one of them cannot be read. -/
def blockRows (s : State) (p : Nat) (b : LoamEntry) (r : Nat) : Nat → State × Option (List Nat)
  | 0 => (s, some [])
  | n + 1 =>
    match blockRow s p b r with
    | (s, none) => (s, none)
    | (s, some d) =>
      match blockRows s p b (r + 1) n with
      | (s, none) => (s, none)
      | (s, some l) => (s, some (d :: l))

/-! ## Export (R486 to R490) -/

/-- Multiplication by α = 0x02 in GF(2⁸) with the polynomial x⁸ + x⁴ + x³ + x² + 1 (R488). -/
def gfDouble (x : Nat) : Nat := if x < 128 then 2 * x else (2 * x) % 256 ^^^ 0x1D
/-- Multiplication by α^n. -/
def gfPow (x : Nat) : Nat → Nat
  | 0 => x
  | n + 1 => gfPow (gfDouble x) n
/-- gmul(α^n, ·) on every byte of a number of `len` bytes. -/
def gfBytes (n v : Nat) : Nat → Nat
  | 0 => 0
  | len + 1 => gfPow (v % 256) n + 256 * gfBytes n (v / 256) len

/-- The fields of an export job (R486). -/
structure Job where
  k : Nat
  m : Nat
  u : Nat
  job : Nat
  stack : Nat
  first : Nat
  stripes : Nat
  dsts : List Nat

/-- The job of an EXPORT command. -/
def jobOf (c : Cmd) : Job :=
  let w0 := cmdWord c 0
  let w1 := cmdWord c 1
  { k := bits w0 55 52, m := bits w0 51 50, u := bits w0 49 44 + 1, job := bits w0 31 0, stack := bits w1 63 59,
    first := bits w1 58 32, stripes := bits w1 31 0,
    dsts := (upFrom 0 (bits w0 55 52 + bits w0 51 50)).map fun i => bits (cmdWord c (2 + i / 4)) (16 * (i % 4) + 13) (16 * (i % 4)) }

/-- Whether the rows of an export stay within the stack's capacity (R447, R487). -/
def jobRangeOk (s : State) (j : Job) : Bool :=
  let n := j.stripes * j.k * j.u
  decide (j.first + n ≤ 2 ^ 27) && (upFrom (j.first / 2 ^ 23) (ceilDiv (j.first % 2 ^ 23 + n) (2 ^ 23))).all fun t =>
    decide (min (2 ^ 23) (j.first + n - t * 2 ^ 23) ≤ sliceRows s)

/-- Whether an export job is well formed (R486, R487, R572). -/
def jobOk (s : State) (c : Cmd) : Bool :=
  let j := jobOf c
  decide (1 ≤ j.k) && decide (j.k ≤ 14) && decide (j.m ≤ 2) && decide (1 ≤ j.stripes) && bits (cmdWord c 0) 43 32 == 0
    && cmdWord c 6 == 0 && cmdWord c 7 == 0
    && (upFrom 0 16).all (fun i => bits (cmdWord c (2 + i / 4)) (16 * (i % 4) + 15) (16 * (i % 4) + 14) == 0)
    && j.dsts.all (fun d => decide (12840 ≤ d ∧ d < 13312)) && jobRangeOk s j

/-- A unit as it is delivered (R489): its header row and its rows, given as one number. -/
def unitEntry (j : Job) (stripe shard first body : Nat) : List Row :=
  let h := fields [(j.job, 0), (stripe % 2 ^ 32, 32), (shard, 64), (j.k, 72), (j.m, 80), (j.u, 88),
    (crc32c body (512 * j.u), 96), (first % 2 ^ 32, 128)]
  BitVec.ofNat 4096 h :: (upFrom 0 j.u).map fun r => BitVec.ofNat 4096 (body >>> (4096 * r))

/-- The number that n rows from a stack row hold, and whether one of them was delivered poisoned. -/
def exportRows (s : State) (stack row : Nat) : Nat → State × Nat × Bool
  | 0 => (s, 0, false)
  | n + 1 =>
    let (s, rd) := tileRead s (rowTile stack row) row 0
    let (s, v, p) := exportRows s stack (row + 1) n
    (s, rd.data + v * 2 ^ 4096, rd.pois != 0 || p)

/-- The data shards of a stripe, from shard i on. -/
def stripeData (s : State) (j : Job) (stripe i : Nat) : Nat → State × List Nat × Bool
  | 0 => (s, [], false)
  | n + 1 =>
    let (s, v, p) := exportRows s j.stack (j.first + (stripe * j.k + i) * j.u) j.u
    let (s, l, q) := stripeData s j stripe (i + 1) n
    (s, v :: l, p || q)

/-- The parity shards of a stripe (R488). -/
def parityOf (j : Job) (data : List Nat) : List Nat :=
  ([data.foldl (· ^^^ ·) 0, (data.zipIdx.map fun d => gfBytes d.2 d.1 (512 * j.u)).foldl (· ^^^ ·) 0]).take j.m

/-- One stripe of the export in progress (R487 to R490): its units leave, the last stripe completes the job, and a poisoned or
damaged row ends it. -/
def exportStripe (s : State) (c : Cmd) (stripe : Nat) : State :=
  let j := jobOf c
  let (s, data, bad) := stripeData s j stripe 0 j.k
  if bad then
    let t := rowTile j.stack (j.first + stripe * j.k * j.u)
    let s := postEntry { s with xport := none }
      { kind := 0x0C, stamp := s.clk.master, unit := some (tileSite t), cls := 15, syn := BitVec.ofNat 64 stripe }
    endCmd s c 1 0x25
  else
    let first := fun (i : Nat) => j.first + (stripe * j.k + i) * j.u
    let units := (data ++ parityOf j data).zipIdx.map fun d => (d.2, unitEntry j stripe d.2 (first d.2) d.1)
    let s := units.foldl (fun s e => putOut s (.hostEntry (BitVec.ofNat 14 ((j.dsts[e.1]?).getD 0)) e.2)) s
    if stripe + 1 = j.stripes then endCmd { s with xport := none } c 0 0
    else { s with xport := some { job := BitVec.ofNat 32 j.job, stripe := stripe + 1 } }

/-- The EXPORT command (R486): its next stripe, or the job at the front of the command ring. No unit leaves while no port
carries host windows. -/
def exportCmd (s : State) : State :=
  if (tabOf s s.fab.active).hostPort.isNone then s
  else match s.xport with
  | some x => match s.cmds.find? fun c => c.started && cmdOp c == 1 && cmdJob c == x.job.toNat with
    | some c => exportStripe s c x.stripe
    | none => { s with xport := none }
  | none => match nextOf s 1 with
    | none => s
    | some c => if jobOk s c then exportStripe (beginCmd s c) c 0 else endCmd s c 1 0x23

/-! ## Commands -/

/-- R321: A draining placement becomes quiet with no sample in flight, and its cores are stopped. -/
def execDrainEnd (p : Plc) (s : State) : Answer := .next (drainEnd s p.val)

/-- R322: A fault drain reaches its limit or sees a halted core, and is forced to stop and discard. -/
def execDrainLimit (p : Plc) (s : State) : Answer := .next (drainLimit s p.val)

/-- R768: A planned recovery's context drain is not quiet after 4 ms and becomes a fault drain. -/
def execContextDrainTimeout (p : Plc) (s : State) : Answer := .next (drainTimeout s p.val)

/-- R325: The LOAD command checks a staged timetable image and writes units and routers. -/
def execLoad (img : Image) (s : State) : Answer := .next (loadCmd s img)

/-- R325: A loaded or resumed placement starts at the next T tick. -/
def execPlacementStart (p : Plc) (s : State) : Answer := .next (startArmed s p.val)

/-- R572: The UNLOAD command context-drains a placement and releases its resources. -/
def execUnload (s : State) : Answer := .next (unloadCmd s)

/-- R481: The background check of loam copy B completes and a failure posts a LOAM_COPY event. -/
def execLoamCopyBCheck (p : Plc) (s : State) : Answer := .next (checkCopyB s p.val)

/-- R486: The EXPORT command streams a stack range with parity shards to host queues. -/
def execExportJob (s : State) : Answer := .next (exportCmd s)

end Sys2Proof.Machine
end

