-- ==== Sys2Proof/Machine/Fence.lean ====
section
/-! DEFINITION. Fencing (R41, R47, R388, R484, R507, R670, R671, R738 to R740), the controlled handover (R593 to R596), and
what the proctor writes into the routing tables when a port changes (R923). -/

namespace Sys2Proof.Machine

/-! ## Ports and their routing entries -/

/-- A port fused off by the link grade (R12, R13). -/
def fusedOff (s : State) (n : Nat) : Bool := s.fuses.linkGrade == 16 && n % 2 == 1
def isUp (s : State) (n : Nat) : Bool := (getPort s n).state == .up
/-- The lowest-numbered port of a condition. -/
def lowestPort (f : Nat → Bool) : Option Nat := (upFrom 0 32).find? f
def upMask (s : State) : BitVec 32 := BitVec.ofNat 32 ((upFrom 0 32).foldl (fun a n => if isUp s n then a + 2 ^ n else a) 0)

/-- NLK_PSTAT word 0 (R533). -/
def pstatWord (s : State) (n : Nat) : Word :=
  let x := getPort s n
  let st := match x.state with | .untrained => 0 | .training => 1 | .up => 2 | .fenced => 3
  BitVec.ofNat 64 (fields [(st, 10), (ofBool (fusedOff s n), 9), (ofBool (s.clk.timing.val == n && s.clk.state != .locking), 8),
    (ofBool x.savedSet, 7), (x.lanes.toNat, 5), (x.retrains.toNat, 0)])

/-- Entries of ports, host windows and remote aliases that follow the ports that are up (R923). -/
def portEntries (s : State) (t : Tables) : Tables :=
  { t with ports := upMask s, hostPort := (lowestPort (isUp s)).map (Fin.ofNat 32) }
/-- A port has come up or left the up state: its entries move with the next flip (R923), and the host is told (R575). -/
def portChanged (s : State) (n : Nat) : State :=
  let s := if s.fab.tab0.written || s.fab.tab1.written then requestFlip s (portEntries s) else s
  postEvent s 0x07 0xFF [BitVec.ofNat 64 n, pstatWord s n]

/-! ## The timing port (R588, R593 to R596) -/

/-- The target of a handover away from the timing port: the host's choice if it is up, else the lowest up port (R595). -/
def handoverTarget (s : State) : Option Nat :=
  if s.clk.choice ∧ s.clk.chosen ≠ s.clk.timing ∧ isUp s s.clk.chosen.val then some s.clk.chosen.val
  else lowestPort fun n => isUp s n && n != s.clk.timing.val
/-- The end of a handover: the target is the timing port (R593). -/
def switchTiming (s : State) (n : Nat) : State :=
  { s with clk := { s.clk with timing := Fin.ofNat 32 n, handovers := sat16 s.clk.handovers 1, state := .locked } }
/-- The handover before the timing port is fenced (R595, R596): none where no other port is up. -/
def leaveTiming (s : State) (n : Nat) : State :=
  if s.clk.timing.val = n ∧ (s.clk.state = .locked ∨ s.clk.state = .handover) then
    match handoverTarget s with
    | some m => switchTiming s m
    | none => s
  else s

/-! ## Fencing a port (R505, R507, R589) -/

/-- A port leaves service; one fused off by the link grade is neither fenced nor reported (R13, R505). -/
def fencePort (s : State) (n : Nat) : State :=
  if (getPort s n).state = .fenced ∨ fusedOff s n then s
  else
    let s := leaveTiming s n
    let s := modPort s n fun x => { x with state := .fenced, lanes := 0, locked := 0 }
    let s := if s.clk.choice ∧ s.clk.chosen.val = n then { s with clk := { s.clk with choice := false } } else s
    portChanged (raiseCause s 4) n
/-- A port fails of itself and is fenced: one entry (R50), which names its spur tile. -/
def fencePortAlone (s : State) (n : Nat) : State :=
  let s' := fencePort s n
  if (getPort s' n).state = (getPort s n).state then s'
  else postEntry s' { kind := 0x07, level := 2, stamp := s.clk.master, unit := some (spurSite n), action := 5 }

/-! ## Units -/

/-- BRG_INV, the spares, the detention list and the trims after a unit leaves service (R738, R741). -/
def markOut (s : State) (u : Nat) (st : UnitState) : State :=
  { s with
    brg := { s.brg with units := tset .good s.brg.units u st, spares := s.brg.spares.filter (fun v => v.val != u),
                          waiting := s.brg.waiting.filter fun v => v.val != u }
    chk := { s.chk with detained := s.chk.detained.filter (fun d => d.unit.val != u), quizzes := tdel s.chk.quizzes u, trims := tset 0 s.chk.trims u 0,
                          marginFor := s.chk.marginFor.filter fun v => v.val != u } }
/-- A unit's bit of the field defect map (R789). -/
def setFdm (s : State) (u : Nat) : State :=
  { s with rpt := { s.rpt with fdm := if s.rpt.fdm.any (fun v => v.val == u) then s.rpt.fdm else s.rpt.fdm ++ [toSite u] } }
/-- The field defect map and BRG_INV after a fence in service (R739, R746). -/
def markFenced (s : State) (u : Nat) : State :=
  let s := setFdm (markOut s u .fieldDefect) u
  { s with rcv := { s.rcv with fenced := tmod 0 s.rcv.fenced (regionOf u) fun n => min 255 (n + 1) } }

/-- The edge tiles of a region in the order of R387. -/
def fallbackTiles (r : Nat) : List Nat := [floorSite r 12 0, floorSite r 0 12, floorSite r 7 0, floorSite r 0 7]

/-- The fall-back of a port whose spur tile, or whose fall-back tile, is fenced (R388). -/
def fallBack (s : State) (n : Nat) : State :=
  match (fallbackTiles n).find? fun v => !isFenced s v with
  | some v =>
    let s := modPort s n fun x => { x with fallback := some v }
    requestFlip s fun t => { t with inject := tput t.inject n (some v) }
  | none => fencePort s n

/-- The placements that a condition on their images or cores selects stop with a cause (R47, R485, R671). -/
def stopWhere (s : State) (cause : Nat) (f : Nat → Placement → Bool) : State :=
  (s.plcs.filter fun e => f e.1 e.2).foldl (fun s e => stopPlacement s e.1 cause) s

/-- Whether a placement reserves a cycle on an edge link, in either direction (R669, R671). -/
def reservesEdge (s : State) (p key : Nat) : Bool :=
  s.segs.any fun g => g.plc.val == p && g.route.path.any fun h => crosses h && edgeLinkKey h.site.val (h.out.val - 6) == key

/-- A link of an edge tile in a mode (R668); in service, one that falls below full mode stops the placements that reserve
it (R671). -/
def setEdgeLink (s : State) (u link : Nat) (m : LinkMode) : State :=
  if (facingTile u).isNone then s
  else
    let s := { s with brg := { s.brg with links := tset .full s.brg.links (edgeLinkKey u link) m } }
    if m = .full then s else stopWhere s 9 fun p _ => reservesEdge s p (edgeLinkKey u link)
/-- Both edge links of a fenced tile are disabled (R670). -/
def cutEdgeTile (s : State) (u : Nat) : State := setEdgeLink (setEdgeLink s u 0 .disabled) u 1 .disabled

/-- Whether a placement declares a port tile (R485). -/
def declaresTile (x : Placement) (t : Nat) : Bool :=
  match x.img with
  | some im => im.channels.any fun c => c.tile.val == t
  | none => false

/-- A core out of service (R738). -/
def closeCore (s : State) (u : Nat) : State :=
  modCore s u fun c => { c with run := .fenced, held := none, forming := [] }

/-- What a fence does to a unit of a region that stays (R738), but for what a core's placement does. -/
def fenceEffect (s : State) (u : Nat) : State :=
  let k := kindOf s u
  if isCoreKind k then closeCore s u
  else if k = some .portTile then stopWhere s 9 fun _ x => declaresTile x (tileAt u)
  else if k = some .spurTile then (if (getPort s (regionOf u)).fallback.isNone then fallBack s (regionOf u) else s)
  else if k = some .edgeTile then
    let s := cutEdgeTile s u
    if (getPort s (regionOf u)).fallback = some u then fallBack s (regionOf u) else s
  else s

/-- Every site of a region that names a unit. -/
def regionUnits (s : State) (r : Nat) : List Nat :=
  (upFrom 0 20).flatMap fun y => (upFrom 0 20).filterMap fun x =>
    let u := siteXY (r % 8 * 20 + x) (r / 8 * 20 + y)
    if (kindOf s u).isSome then some u else none

/-- Whether a placement uses a region: a core or a declared tile of it (R47). -/
def usesRegion (s : State) (p : Nat) (x : Placement) (r : Nat) : Bool :=
  ((coresOf s p).any fun u => regionOf u == r) ||
    (match x.img with
     | some im => im.channels.any fun c => c.tile.val / 16 == r
     | none => false)

/-- A region is fenced (R47, R738): its rail off, every unit and its port out of service; placements that use it stop. -/
def fenceRegion (s : State) (r : Nat) : State :=
  let s := stopWhere s 9 fun p x => usesRegion s p x r
  let s := fencePort s r
  let us := regionUnits s r
  let s := us.foldl (fun s u => if isCoreKind (kindOf s u) then closeCore s u else if isEdgeTile u then cutEdgeTile s u else s) s
  { s with
    brg := { s.brg with
      units := us.foldl (fun t u => if tget .good t u = .good then tset .good t u .regionFenced else t) s.brg.units
      spares := s.brg.spares.filter fun v => regionOf v.val != r
      regionsOut := s.brg.regionsOut ||| BitVec.ofNat 32 (2 ^ r) }
    pwr := { s.pwr with railOff := s.pwr.railOff ||| BitVec.ofNat 32 (2 ^ r) } }

/-- A fault that removes a region (R47, R50): one entry, which names the region's active service tile. -/
def removeRegion (s : State) (r kind : Nat) : State :=
  if bit s.brg.regionsOut.toNat r then s
  else postEntry (fenceRegion s r)
    { kind := kind, level := 2, stamp := s.clk.master, unit := some (serviceSite r (bit s.brg.service2.toNat r)), action := 8 }

/-- The active service tile of a region (R40, R41). -/
def activeService (s : State) (r : Nat) : Nat := serviceSite r (bit s.brg.service2.toNat r)

/-- The fence of a unit whose mark `mark` sets (R41, R738): a service tile's role passes to the standby, and both fenced fence
the region. -/
def fenceUnitWith (s : State) (u : Nat) (mark : State → State) : State :=
  if isFenced s u then s
  else
    let r := regionOf u
    let s' := fenceEffect (mark s) u
    if kindOf s u = some .serviceTile then
      if isFenced s' (serviceSite r false) && isFenced s' (serviceSite r true) then
        fenceRegion s' r
      else if activeService s r = u then
        { s' with brg := { s'.brg with service2 := s'.brg.service2 ^^^ BitVec.ofNat 32 (2 ^ r) } }
      else s'
    else s'
/-- The fence of a unit in service (R738, R739). -/
def fenceUnit (s : State) (u : Nat) : State := fenceUnitWith s u fun s => markFenced s u

/-- What the fence of a unit came to (R50, R388, R786): the level that removed the fault, the action, and the edge tile that now serves
the port. -/
def removal (s : State) (u : Nat) : Nat × Nat × Option Nat :=
  let r := regionOf u
  let x := getPort s r
  if kindOf s u = some .serviceTile ∧ bit s.brg.regionsOut.toNat r then (2, 8, none)
  else if kindOf s u = some .spurTile ∨ (kindOf s u = some .edgeTile ∧ (fallbackTiles r).contains u ∧ x.fallback.isSome) then
    if x.state = .fenced then (2, 5, none) else (0, 10, x.fallback)
  else (0, 5, none)

/-- The ID of a core that is fenced without a substitute becomes invalid with the next flip (R740). -/
def dropId (s : State) (u : Nat) : State := requestFlip s fun t => { t with route := tput t.route (idOfSite s u) 0 }

/-! ## Fabric drain (R348, R349) -/

/-- A drain-first rewrite begins: sources stop, a pending flip is cancelled, and what has been decided is written at the end
of the wait. -/
def startFabricDrain (s : State) (f : Tables → Tables) : State :=
  let t := f (decidedTables s)
  { s with fab := { s.fab with want := some t, pending := false, drainFrom := some s.clk.master } }

end Sys2Proof.Machine
end

