-- ==== Sys2Proof/Machine/Rings.lean ====
section
/-! DEFINITION. Rings, descriptors and commit (R535 to R578): ring set-up, doorbells, fetch, RUN, input delivery, output
writes and commit gates. -/

namespace Sys2Proof.Machine

/-! ## Ring set-up and doorbells (R532, R540 to R546) -/

/-- Whether a disabled ring may be enabled with its fields (R542, R543): a completion ring has no port of its own (R544). -/
def ringFieldsOk (s : State) (r : Nat) (x : Ring) : Bool :=
  decide (8 ≤ x.window.toNat ∧ x.window.toNat ≤ 479) && x.offset.toNat % 4096 == 0
    && decide (4 ≤ x.log2.toNat ∧ x.log2.toNat ≤ 16) && ((9 ≤ r && r ≤ 17) || isUp s x.port.toNat)

/-- The output alias of a placement names the port of its ring from its enabling on (R544, R923). -/
def aliasPort (s : State) (r : Nat) : State :=
  if r < 8 ∧ (getRing s r).enable then
    requestFlip s fun t => { t with outs := tset none t.outs r (some (Fin.ofNat 32 (getRing s r).port.toNat)) }
  else s

/-- A write of one word of HIF_RING (R542, R543, R570): the register after it, or none where it is refused. -/
def ringWrite1 (s : State) (r word v : Nat) : Option State :=
  let x := getRing s r
  if word = 0 then
    if bits v 52 36 ≠ 0 then none
    else if x.enable then some (setRing s r { x with enable := bit v 63 })
    else
      let y := { x with window := BitVec.ofNat 9 (bits v 61 53), offset := BitVec.ofNat 36 (bits v 35 0), prod := 0, cons := 0 }
      if bit v 63 then
        if ringFieldsOk s r y then
          let s := { s with seqs := tset seqRec0 s.seqs r seqRec0 }
          some (aliasPort (setRing s r { y with enable := true }) r)
        else none
      else some { setRing s r y with seqs := tset seqRec0 s.seqs r seqRec0 }
  else if word = 1 then
    if bits v 31 13 ≠ 0 ∨ bits v 7 5 ≠ 0 ∨ (8 ≤ r ∧ bits v 63 32 ≠ 0) then none
    else if x.enable then some s
    else some (setRing s r { x with mask := BitVec.ofNat 32 (bits v 63 32), port := BitVec.ofNat 5 (bits v 12 8),
                                    log2 := BitVec.ofNat 5 (bits v 4 0) })
  else some s

/-- The ring and the index that a doorbell number updates (R539): the producer index, or the consumer index. -/
def bellRing (d : Nat) : Option (Nat × Bool) :=
  if d ≤ 8 then some (d, true) else if 16 ≤ d ∧ d ≤ 25 then some (d - 7, false) else none

/-- One DOORBELL entry (R532, R540, R546). -/
def applyBell (s : State) (d : Nat) (v : BitVec 32) : State :=
  match bellRing d with
  | none => s
  | some (r, isProd) =>
    let x := getRing s r
    let diff := (v - if isProd then x.prod else x.cons).toNat
    if diff = 0 ∨ 2 ^ 31 ≤ diff then s
    else if isProd then
      if x.enable ∧ ringSize x < (v - x.cons).toNat then
        postEvent (setRing s r { x with enable := false }) 0x06 0xFF [BitVec.ofNat 64 r, v.setWidth 64]
      else setRing s r { x with prod := v }
    else setRing s r { x with cons := v }

/-! ## Fetch (R545, R573) -/

/-- Descriptors and commands that have reserved an entry of their completion ring. -/
def reserved (s : State) (r : Nat) : Nat := if r = 8 then s.cmds.length else (getDescs s r).length

/-- Whether the ring engine may fetch from a ring: up port, work, room for the completion, fewer than 8 descriptors waiting
for delivery, no load of the placement in progress, no nap (R545, R573, R625, R688). -/
def mayFetch (s : State) (r : Nat) : Bool :=
  let x := getRing s r
  let c := getRing s (9 + r)
  x.enable && isUp s x.port.toNat && x.prod != x.cons && c.enable && decide (ringUsed c + reserved s r < ringSize c)
    && s.pwr.phase == .run && !s.clk.gated && !s.exm.raw && !(s.plcs.any fun e => e.2.state == .napping)
    && (if r = 8 then s.brg.phase == 6
        else decide (((getDescs s r).filter fun d => d.state == .fetched).length < 8) && (getPlc s r).state != .loaded)

def dword (d : Desc) (i : Nat) : Nat := bits d.words.toNat (64 * i + 63) (64 * i)

/-- A descriptor just read (R547). -/
def freshDesc (index : BitVec 32) (w : BitVec 512) (now : Tick) : Desc :=
  { index := index, words := w, checked := false, state := .fetched, n := bits w.toNat 13 0 + 1,
    seq := BitVec.ofNat 64 (bits w.toNat 127 64), tag := BitVec.ofNat 64 (bits w.toNat 319 256), tag0 := 0, first := 0, accept := none, inAcks := 0,
    rows := [], sent := [], lastOut := none, outAcks := 0, poison := false, hostBad := false, decided := now }

/-- A command just read (R572): reserved operations and repeated job IDs complete at once. -/
def takeCmd (s : State) (c : Cmd) : State :=
  if cmdOp c = 0 ∨ 6 < cmdOp c then endCmd { s with cmds := s.cmds ++ [c] } c 1 0x23
  else if s.cmds.any fun x => cmdJob x == cmdJob c then
    postCompletion s 8 c.index 2 0x31 (BitVec.ofNat 64 (cmdJob c)) 0 s.clk.master
  else { s with cmds := s.cmds ++ [c] }

/-- Fetching the next entry of a ring; an unreadable one completes with HOST_ACCESS. -/
def fetchEntry (s : State) (r : Nat) (readOk : Bool) (w : BitVec 512) : State :=
  if mayFetch s r then
    let x := getRing s r
    let i := x.cons
    let s := setRing s r { x with cons := x.cons + 1 }
    if !readOk then postCompletion s r i 1 0x24 0 0 s.clk.master
    else if r = 8 then takeCmd s { index := i, words := w, started := false }
    else setDescs s r (getDescs s r ++ [freshDesc i w s.clk.master])
  else s

/-! ## RUN (R547, R566 to R568) -/

/-- The fields of a descriptor that no placement's image decides (R547, R566). -/
def descFieldsOk (r : Nat) (d : Desc) : Bool :=
  let w := dword d
  let window := fun (x : Nat) => decide (8 ≤ bits x 63 55 ∧ bits x 63 55 ≤ 479) && bits x 54 36 == 0 && bits x 8 0 == 0
  bits (w 0) 63 56 == 1 && bits (w 0) 55 53 == r && bits (w 0) 52 14 == 0 && window (w 2) && window (w 3)
    && w 5 == 0 && w 6 == 0 && w 7 == 0

/-- DONE_BEFORE (R567, R568). -/
def doneBefore (q : SeqRec) (x : Word) : Bool :=
  match q.high with
  | none => false
  | some h => q.set.contains x || decide (x.toNat + 4096 ≤ h.toNat)

/-- The status and reason with which a descriptor completes at fetch, or none. -/
def fetchVerdict (s : State) (r : Nat) (d : Desc) : Option (Nat × Nat) :=
  let x := getPlc s r
  if !descFieldsOk r d then some (1, 0x23)
  else if doneBefore (tget seqRec0 s.seqs r) d.seq then some (2, 0x30)
  else if ((getDescs s r).takeWhile fun e => e.index != d.index).any fun e => e.seq == d.seq then some (2, 0x31)
  else if x.state = .absent ∨ x.state = .loaded ∨ (begunFor s 3 r).isSome then some (1, 0x22)
  else if x.state = .stopped then some (1, 0x21)
  else match x.img.bind (·.host) with
    | none => some (1, 0x23)
    | some h => if h.nMax < d.n ∨ d.n % h.granule ≠ 0 then some (1, 0x23) else none

/-- A fetched descriptor is checked, or completed at once. -/
def runDesc (s : State) (r : Nat) (index : BitVec 32) : State :=
  match (getDescs s r).find? fun d => d.index == index && !d.checked with
  | none => s
  | some d =>
    match fetchVerdict s r d with
    | some (st, reason) =>
      postCompletion (setDescs s r ((getDescs s r).filter fun e => e.index != index)) r index st reason d.seq d.tag s.clk.master
    | none => setDescs s r ((getDescs s r).map fun e => if e.index = index then { e with checked := true } else e)

/-! ## Input delivery (R549 to R553) -/

/-- The bytes of an intake entry that a descriptor delivers, packed in sample order, as a number. -/
def packEntry (h : HostSection) (k : Intake) (input : Nat) (n : Nat) : Nat :=
  (upFrom 0 n).foldr (fun i acc =>
    bits input (8 * (i * h.inBytes + k.offset + k.bytes) - 1) (8 * (i * h.inBytes + k.offset)) + acc * 2 ^ (8 * k.bytes)) 0

/-- The lead row (R551). -/
def leadRow (d : Desc) (tag0 : Nat) : Nat := fields [(d.seq.toNat, 0), (tag0, 64), (d.n - 1, 80), (d.index.toNat, 96)]

/-- The rows that an intake entry receives of a descriptor. -/
def entryRows (h : HostSection) (e : Nat) (k : Intake) (input : Nat) (d : Desc) (tag0 : Nat) : List Nat :=
  let body := packEntry h k input d.n
  (if e = 0 ∧ h.lead then [leadRow d tag0] else [])
    ++ (upFrom 0 (ceilDiv (d.n * k.bytes) 512)).map fun r => (body >>> (4096 * r)) % 2 ^ 4096

/-- The operations that carry rows into a ring from a position: each contiguous and of at most 64 rows. -/
def chunks (n pos : Nat) : Nat → List Nat → List (Nat × List Nat)
  | 0, _ => []
  | fuel + 1, l =>
    if l.isEmpty then []
    else
      let p := pos % n
      let m := min 64 (n - p)
      (p, l.take m) :: chunks n (p + (l.take m).length) fuel (l.drop m)

/-- One intake operation of a ring engine. -/
def sendIntake (s : State) (r : Plc) (index : BitVec 32) (k : Intake) (c : Nat × List Nat) : State :=
  let rows := c.2.map fun v => { data := BitVec.ofNat 4096 v, poison := 0 : PRow }
  enqueue s (12800 + (getRing s r.val).port.toNat)
    { kind := .input r index, ptype := 1, dst := k.dst, base := 0, count := rows.length, done := 0,
      op := BitVec.ofNat 128 (fields [(k.base + c.1, 112), (k.counter.toNat, 106), (rows.length - 1, 72)]), id := 0, rows := some rows,
      port := none, waited := false, pc := 0, bslot := 0, cyc := 0 } none

/-- Whether a placement takes a further descriptor (R321, R552): at most two are ahead of the one whose samples are being accepted. -/
def mayDeliver (s : State) (r : Nat) : Bool :=
  let x := getPlc s r
  x.state == .running && x.drain.isNone && !x.gatesShut && !s.clk.gated
    && decide ((x.batches.filter fun b => decide (accepted x < b.1 + b.2)).length < 3)

/-- The port through which a descriptor's input is read (R549): the (i mod m)-th up port of the ring's mask, or the ring's own. -/
def dataPort (s : State) (r : Nat) (d : Desc) : Nat :=
  let l := (upFrom 0 32).filter fun n => bit (getRing s r).mask.toNat n && isUp s n
  (l[d.index.toNat % l.length]?).getD (getRing s r).port.toNat

/-- The read of a descriptor's input, in whole rows (R549). -/
def readInput (s : State) (r : Nat) (d : Desc) (h : HostSection) : State :=
  let w2 := dword d 2
  putOut s (.hostRead (Fin.ofNat 32 (dataPort s r d)) (BitVec.ofNat 9 (bits w2 63 55)) (BitVec.ofNat 36 (bits w2 35 0))
    (ceilDiv (d.n * h.inBytes) 512))

/-- Delivering the next descriptor: its input is read, its samples take tags in order, and every intake entry gets its rows. -/
def deliver (s : State) (r : Plc) (readOk : Bool) (input : List Row) : State :=
  match (getDescs s r.val).find? fun d => d.state == .fetched with
  | none => s
  | some d =>
    match (getPlc s r.val).img.bind (·.host) with
    | none => s
    | some h =>
      if !d.checked ∨ !mayDeliver s r.val then s
      else
      let s := readInput s r.val d h
      if !readOk then
        postCompletion (setDescs s r.val ((getDescs s r.val).filter fun e => e.index != d.index)) r.val d.index 1 0x24 d.seq d.tag
          s.clk.master
      else
        let x := getPlc s r.val
        let bytes := input.foldr (fun v acc => v.toNat + acc * 2 ^ 4096) 0
        let plan := h.intake.zipIdx.map fun k =>
          let l := entryRows h k.2 k.1 bytes d (x.nextSample % 16384)
          (k.2, k.1, l.length, chunks k.1.rows (tget 0 x.intakePos k.2) l.length l)
        let acks := plan.foldl (fun a q => a + q.2.2.2.length) 0
        let s := setDescs s r.val ((getDescs s r.val).map fun e =>
          if e.index = d.index then { e with state := if acks = 0 then .running else .delivering, tag0 := x.nextSample % 16384,
                                             first := x.nextSample, inAcks := acks } else e)
        let pos := plan.foldl (fun t q => tmod 0 t q.1 fun v => (v + q.2.2.1) % q.2.1.rows) x.intakePos
        let open_ := x.batches.filter fun b => decide (accepted x < b.1 + b.2)
        let s := setPlc s r.val { x with nextSample := x.nextSample + d.n, batches := open_ ++ [(x.nextSample, d.n)], intakePos := pos }
        plan.foldl (fun s q => q.2.2.2.foldl (fun s c => sendIntake s r d.index q.2.1 c) s) s

/-! ## Output (R555 to R561) -/

def outRowsOf (s : State) (p : Nat) (d : Desc) : Nat := match hostOf (getPlc s p) with | some h => outRows h d | none => 0

/-- A DMA_WRITE of buffered output rows to the output window (R557). -/
def writeOutput (s : State) (port : Nat) (p : Plc) (d : Desc) (off : Nat) (rows : List PRow) : State :=
  let w3 := dword d 3
  let s := modPort s port fun x => { x with outRows := x.outRows + rows.length }
  enqueue s (12800 + port)
    { kind := .output p d.index, ptype := 4, dst := BitVec.ofNat 14 (12832 + bits w3 63 55), base := 0, count := rows.length, done := 0,
      op := BitVec.ofNat 128 (fields [(bits w3 35 9 + off, 101), (rows.length - 1, 89)]), id := 0, rows := some rows, port := none,
      waited := false, pc := 0, bslot := 0, cyc := 0 } none

/-- Rows of a descriptor that have been received: with the last one it is gated (R559). -/
def receivedRows (s : State) (p : Nat) (d : Desc) (off n : Nat) (bad : Bool) : State :=
  let rows := (upFrom off n).foldl setAdd d.rows
  let whole := decide (rows.length = outRowsOf s p d)
  let live := descLive d
  let s := setDescs s p ((getDescs s p).map fun e => if e.index = d.index then
    { e with rows := rows, poison := e.poison || bad, outAcks := e.outAcks + 1,
             lastOut := if whole then some s.clk.master else e.lastOut, state := if whole && live then .gated else e.state } else e)
  modPlc s p fun x => { x with held := false }

/-- An output WRITE whose turn has come at the ring engine of a port. -/
def applyOutput (port : Nat) (s : State) (c : Ctx) (k : Packet) : State × Ctx × Option Nat :=
  let w := k.op.toNat
  let p := k.dst.toNat - 12832
  let n := bits w 77 72 + 1
  let off := bits w 127 112 + 65536 * bits w 71 67
  match c.refuse, tagDesc s p (bits w 103 90) with
  | some code, _ => (s, ctxAfter c k, some code)
  | none, none => (s, ctxAfter { c with refuse := some 0x4D } k, some 0x4D)
  | none, some d =>
    if c.progress = 0 ∧ (bits w 105 104 ≠ 0 ∨ outRowsOf s p d < off + n ∨ (upFrom off n).any (setHas d.rows)) then
      (s, ctxAfter { c with refuse := some 0x4E } k, some 0x4E)
    else if 256 < (getPort s port).outRows + k.rows.length then
      (modPlc s p fun x => { x with held := true }, c, some 0x49)
    else
      let at0 := off + c.progress
      let s := receivedRows s p d at0 k.rows.length (k.rows.any fun r => r.poison != 0)
      (writeOutput s port (Fin.ofNat 8 p) d at0 k.rows, ctxAfter c k, none)

/-- An output WRITE arrives at a ring engine (R535, R556, R557). -/
def outputWrite (s : State) (i : Nat) (d : Damage) : State :=
  match takePacket s i with
  | none => s
  | some (k, s') =>
    match k.toPort with
    | some n =>
      if k.pos == k.dstSite && k.ptype == 1 && decide (12832 ≤ k.dst.toNat ∧ k.dst.toNat < 12840) then
        arrive s' (12800 + n.val) k d true (applyOutput n.val)
      else s
    | none => s

/-! ## Commit (R320, R558, R560 to R567) -/

/-- The sequence record after a commit (R567). -/
def recordSeq (q : SeqRec) (x : Word) : SeqRec :=
  let h := match q.high with | none => x | some h => if h.ult x then x else h
  { high := some h, set := (x :: q.set).filter fun y => decide (h.toNat < y.toNat + 4096) }

/-- A commit gate opens: the descriptor commits, or is discarded for a poisoned row or a failed host access. -/
def openGate (s : State) (r : Nat) (index : BitVec 32) : State :=
  match (getDescs s r).find? fun d => d.index == index && d.state == .gated with
  | none => s
  | some d =>
    let due := match d.lastOut with | some t => decide (8 ≤ (s.clk.master - t).toNat) | none => false
    if (getPlc s r).gatesShut ∨ d.outAcks ≠ 0 ∨ !due then s
    else
      let reason := if d.poison then 0x25 else if d.hostBad then 0x24 else 0
      let s := setDescs s r ((getDescs s r).map fun e => if e.index = index then
        { e with state := .decided (if reason = 0 then 0 else 1) reason, decided := s.clk.master } else e)
      let s := if reason = 0 then { s with seqs := tset seqRec0 s.seqs r (recordSeq (tget seqRec0 s.seqs r) d.seq) } else s
      let s := modPlc s r fun x => { x with committed := if reason = 0 then x.committed + BitVec.ofNat 64 d.n else x.committed,
                                            discarded := if reason = 0 then x.discarded else x.discarded + BitVec.ofNat 64 d.n }
      if (tget none s.rcv.runs r).isSome then s else flushDescs s r (getDescs s r).length

/-- Every 100 ms while the counters change, an event (R75): 10,000,000 T ticks. -/
def countersEvent (s : State) (p : Nat) : State :=
  let x := getPlc s p
  if x.changed ∧ 10000000 ≤ (s.clk.master - x.lastEvent).toNat then postCounters s p else s

/-! ## Commands -/

/-- R545: The ring engine fetches descriptor rows once completion room and placement limits allow. -/
def execDescriptorFetch (r : Fin 9) (readOk : Bool) (words : BitVec 512) (s : State) : Answer := .next (fetchEntry s r.val readOk words)

/-- R566: A fetched RUN descriptor is checked, deduplicated and queued for delivery, or completed at once. -/
def execRun (r : Plc) (index : BitVec 32) (s : State) : Answer := .next (runDesc s r.val index)

/-- R550: The ring engine packs a descriptor's input into intake rings by WRITE operations. -/
def execInputDelivery (r : Plc) (readOk : Bool) (input : List Row) (s : State) : Answer := .next (deliver s r readOk input)

/-- R556: The ring engine checks an output WRITE, buffers its rows and writes them to the host. -/
def execOutputWrite (i : Nat) (d : Damage) (s : State) : Answer := .next (outputWrite s i d)

/-- R560: A descriptor's commit gate opens and it commits. -/
def execCommitGateOpen (r : Plc) (index : BitVec 32) (s : State) : Answer := .next (openGate s r.val index)

/-- R75: Every 100 ms while counters change, the proctor posts a COUNTERS event. -/
def execCountersEvent (p : Plc) (s : State) : Answer := .next (countersEvent s p.val)

/-- R687: The ACCEPT_GRADE command sets the accepted bit of a below-grade module. -/
def execAcceptGrade (s : State) : Answer :=
  match nextOf s 4 with
  | some c => .next (endCmd { s with brg := { s.brg with accepted := true } } c 0 0)
  | none => .next s

/-- R273: The CLOSE_PASS command removes a hall pass from the directory and its slot. -/
def execClosePass (s : State) : Answer :=
  match nextOf s 6 with
  | some c =>
    let n := bits (cmdWord c 0) 47 32
    let s := { s with
      passDir := s.passDir.filter fun d => d.1.toNat != n
      cores := tmap core0 (fun _ c => { c with passes := c.passes.filter fun h => h.number.toNat != n }) s.cores }
    .next (endCmd s c 0 0)
  | none => .next s

end Sys2Proof.Machine
end

