-- ==== Sys2Proof/Machine/Clocks.lean ====
section
/-! DEFINITION. Clocks and module time (R579 to R611): cold start, the timing port, handover, losing the reference, relock,
and the dies' copies of module time. -/

namespace Sys2Proof.Machine

/-- Ports that hold lock (R587, R600): at least one lane's CDR is locked. -/
def isLocked (s : State) (n : Nat) : Bool := (getPort s n).locked != 0 && (getPort s n).state != .fenced

/-- Whether the module's clocks can run: not off, in recess or saving (R616). -/
def powered (s : State) : Bool :=
  match s.pwr.state with
  | .startup => true | .run => true | .nap => true
  | _ => false

/-! ## Cold start (R585 to R587) -/

/-- Steps 1 to 4 of a cold start (R585), or of a restart of the ports after a reference loss (R877): ports named in `locked`
lock on the lanes that show the host's pattern. Without one the module repeats from step 2 (R586). -/
def lockPorts (s : State) (lanes : Word) (locked : BitVec 32) : State :=
  (upFrom 0 32).foldl (fun s n =>
    let l := bits lanes.toNat (2 * n + 1) (2 * n)
    if bit locked.toNat n ∧ l ≠ 0 ∧ !fusedOff s n ∧ (getPort s n).state ≠ .fenced ∧ (getPort s n).locked = 0 then
      modPort s n fun x => { x with locked := BitVec.ofNat 2 l, refLane := l == 2,
                                    state := if x.state = .untrained then .training else x.state }
    else s) s

def coldStart (s : State) (lanes : Word) (trimmed : Bool) (locked : BitVec 32) : State :=
  if powered s ∧ s.clk.gated ∧ s.pwr.linkRst then
    let s := lockPorts s lanes locked
    let any := (lowestPort (isLocked s)).isSome
    { s with clk := { s.clk with
        fio := true, fineTrim := trimmed,
        waitLock := if any && s.clk.waitLock.isNone then some s.clk.master else s.clk.waitLock } }
  else s

/-- Clocks run again from a timing port: the proctor on G clock, the FIO stopped, the master loaded into every die's copy
(R585, R600, R604, R606). -/
def lockPll (s : State) (n : Nat) : State :=
  { s with clk := { s.clk with state := .locked, timing := Fin.ofNat 32 n, gated := false, onG := true, fio := false,
                               uncertain := true, safe := false, dies := [] } }

/-- Steps 5 to 7 of a cold start (R585, R587): 10 ms are 1,000,000 T ticks. -/
def chooseFirst (s : State) : State :=
  match s.clk.waitLock with
  | some t =>
    let all := (upFrom 0 32).all fun n => fusedOff s n || isLocked s n
    if powered s ∧ s.clk.state = .locking ∧ (all ∨ 1000000 ≤ (s.clk.master - t).toNat) then
      match lowestPort (isLocked s) with
      | some n => { lockPll s n with clk := { (lockPll s n).clk with choice := false, chosen := 0, setOk := true } }
      | none => s
    else s
  | none => s

/-! ## Choice and handover (R588 to R595) -/

/-- A write that names a port (R588): refused where the port is not up; a handover follows where it is not the timing port. -/
def choosePort (s : State) (n : Nat) : State :=
  if !isUp s n then s
  else
    let clk := { s.clk with choice := true, chosen := Fin.ofNat 32 n }
    { s with clk := { clk with state := if s.clk.timing.val ≠ n ∧ s.clk.state = .locked then .handover else s.clk.state } }

/-- R590, R591. -/
def withdrawPort (s : State) : State := { s with clk := { s.clk with choice := false, chosen := 0 } }

/-! ## Losing the reference (R597 to R602) -/

/-- Every placement in service stops for a reference loss (R597, R601): gates shut, cores stopped, and recovery due. -/
def haltPlacement (s : State) (p : Nat) : State :=
  let x := getPlc s p
  match x.state with
  | .running | .recovering =>
    let s := pauseDoors (stopCores s p) p true
    let s := { s with rcv := { s.rcv with runs := tset none s.rcv.runs p none, causes := tset 0 s.rcv.causes p 5,
                                          detect := tset 0 s.rcv.detect p s.clk.master } }
    modPlc s p fun x => { x with state := .recovering, gatesShut := true, drain := none, armed := none }
  | _ => s

/-- The module stops and coasts (R597, R598). -/
def loseReference (s : State) : State :=
  if powered s ∧ !s.clk.gated then
    let s := s.plcs.foldl (fun s e => haltPlacement s e.1) s
    let s := { s with
      clk := { s.clk with fio := true, state := .coast, gated := true, onG := false, safe := true, losses := sat16 s.clk.losses 1 }
      pwr := { s.pwr with selfRef := true }
      fab := { s.fab with pending := false, want := some (decidedTables s) } }
    postEntry s { kind := 0x08, level := 4, stamp := s.clk.master }
  else s

/-- Every descriptor fetched and not committed completes as DISCARDED with FAULT (R601). -/
def discardFetched (s : State) (p : Nat) : State :=
  match (getPlc s p).state with
  | .recovering => discardDescs s p 0x20 true
  | _ => s

/-- The port that times the module after a relock (R600). -/
def relockPort (s : State) : Option Nat :=
  if s.clk.choice ∧ isLocked s s.clk.chosen.val then some s.clk.chosen.val else lowestPort (isLocked s)

/-- Relock and the module-wide recovery that follows (R600, R601): `fioTicks` are ticks that the master counted on the FIO
besides those of T_TICK. -/
def relock (s : State) (fioTicks : Nat) : State :=
  if powered s ∧ s.clk.gated ∧ s.clk.state = .coast then
    match relockPort s with
    | none => s
    | some n =>
      let s := { s with clk := { s.clk with master := s.clk.master + BitVec.ofNat 64 fioTicks } }
      let s := lockPll s n
      let s := { s with pwr := { s.pwr with selfRef := s.pwr.state == .nap } }
      let s := (upFrom 0 32).foldl (fun s n => if isUp s n then modPort s n fun x => { x with state := .training, trained := true } else s) s
      let s := s.plcs.foldl (fun s e => discardFetched s e.1) s
      startFabricDrain s id
  else s

/-- A controlled handover to its target (R593, R595). -/
def runHandover (s : State) (target : Nat) (targetLost currentLost : Bool) : State :=
  if (s.clk.state = .locked ∨ s.clk.state = .handover) ∧ handoverTarget s = some target then
    if currentLost then loseReference s
    else if targetLost then { s with clk := { s.clk with state := .locked } }
    else switchTiming s target
  else s

/-! ## The dies' copies (R603 to R605) -/

/-- The proctor compares each die's copy with the master; one that differs is reloaded, with an entry naming the die. -/
def checkDies (s : State) : State :=
  s.clk.dies.foldl (fun s e =>
    postEntry { s with clk := { s.clk with dies := tdel s.clk.dies e.1 } }
      { kind := 0x08, level := 3, stamp := s.clk.master, unit := some (serviceSite (e.1 % 8 / 4 * 16 + e.1 % 4 * 2) false) }) s

/-! ## Commands -/

/-- R585: The module starts on the FIO, acquires lanes, trims the FIO and locks CDRs. -/
def execColdStart (lanes : Word) (trimmed : Bool) (locked : BitVec 32) (s : State) : Answer := .next (coldStart s lanes trimmed locked)

/-- R587: When all enabled ports lock or 10 ms pass, the lowest locked port becomes timing port and the PLL locks. -/
def execTimingPortChoice (s : State) : Answer := .next (chooseFirst s)

/-- R600: A port is locked again, the PLL relocks and module-wide recovery runs. -/
def execRelock (fioTicks : Nat) (s : State) : Answer := .next (relock s fioTicks)

/-- R588: A CLK_TPORT write with choice valid names an up port as timing port. -/
def execChooseTimingPort (n : Port) (s : State) : Answer := .next (choosePort s n.val)

/-- R591: A CLK_TPORT write clearing choice valid withdraws the host's choice without handover. -/
def execWithdrawTimingPort (s : State) : Answer := .next (withdrawPort s)

/-- R593: A controlled handover measures the target's phase and switches the PLL at a T tick. -/
def execHandover (target : Port) (targetLost currentLost : Bool) (s : State) : Answer :=
  .next (runHandover s target.val targetLost currentLost)

/-- R605: Every 1,000 T ticks the proctor compares each die's copy of module time with the master. -/
def execDieTimeCheck (s : State) : Answer := .next (checkDies s)

end Sys2Proof.Machine
end

