-- ==== Sys2Proof/Machine/Link.lean ====
section
/-! DEFINITION. Natarlink (R494 to R533): training, flits, sequence and replay, credits, doorbells, time. -/

namespace Sys2Proof.Machine

/-! ## Training (R503 to R508) -/

/-- A port's result (R505): up on its accepted lanes with the link layer started afresh, or fenced. -/
def portResult (s : State) (n : Nat) (acc : BitVec 2) (fresh : Bool) : State :=
  if acc = 0 then fencePortAlone s n
  else
    let s := modPort s n fun x =>
      let x := { x with state := .up, lanes := acc, locked := acc, refLane := acc == 2, trained := true, tries := 0 }
      if fresh then { x with txSeq := 0, buffer := [], rxExp := 0, asked := false, ackOwed := false, credits := 0, toReturn := 512,
                             outRows := 0, block := [] }
      else x
    let s := if acc = 3 then s
      else postEntry (raiseCause s 4) { kind := 0x07, stamp := s.clk.master, unit := some (spurSite n) }
    txPump (portChanged s n) n

/-- Whether a port may train with saved settings: on a fast start, with settings for both lanes (R504, R661, R810). -/
def lanesSaved (s : State) (n : Nat) : Bool :=
  s.brg.kind == 1 && (tget none s.brg.saved.lanes (2 * n)).isSome && (tget none s.brg.saved.lanes (2 * n + 1)).isSome

/-- The settings of a port's lanes in a mask, after a full training (R504). -/
def saveLanes (s : State) (n : Nat) (lanes : BitVec 2) : State :=
  [0, 1].foldl (fun s l =>
    let v := if bit lanes.toNat l then some (Config.trainedSettings s.free) else none
    { s with free := s.free + 1
             brg := { s.brg with saved := { s.brg.saved with lanes := tset none s.brg.saved.lanes (2 * n + l) v } } }) s

/-- Training of a port (R503, R504): with saved settings, a lane that fails leads to a full training of both lanes. -/
def trainPort (s : State) (n : Nat) (saved : Bool) (locked acc : BitVec 2) : State :=
  let x := getPort s n
  let open_ := x.state == .untrained || (x.state == .training && !x.trained)
  if !powered s || fusedOff s n || !open_ || !s.pwr.linkRst then s
  else
    let acc := acc &&& locked
    let saved := saved && lanesSaved s n
    if saved && acc != 3 then
      modPort { s with brg := { s.brg with savedBad := sat8 s.brg.savedBad 1 } } n fun x =>
        { x with state := .training, locked := locked, savedSet := false }
    else
      let s := if saved then s else saveLanes s n acc
      portResult (modPort s n fun x => { x with savedSet := saved, locked := locked }) n acc true

/-- Whether a retrain is due for a cause (R506, R508): a lane has lost lock, a lane has shown more than 16 uncorrectable codewords in 1 ms, 8
replays have gone by, or the host has asked. -/
def retrainDue (x : LinkPort) (cause : RetrainCause) : Bool :=
  match cause with
  | .lockLoss => x.lanes &&& ~~~x.locked != 0
  | .uncorrectable => x.unc.any fun e => match e.2.head?, e.2.getLast? with
      | some a, some b => decide (e.2.length = 17 ∧ (b - a).toNat < 100000)
      | _, _ => false
  | .replayLimit => decide (8 ≤ x.tries)
  | .request => x.state == .training

/-- A retrain (R506, R507): sequence numbers, replay buffers and credits survive. -/
def retrainPort (s : State) (n : Nat) (cause : RetrainCause) (acc : BitVec 2) : State :=
  let x := getPort s n
  if !x.trained || (x.state != .up && x.state != .training) || !retrainDue x cause then s
  else
    let s := modPort s n fun x => { x with retrains := (if x.retrains = 31 then 31 else x.retrains + 1), unc := [] }
    let s := postEntry s { kind := 0x07, stamp := s.clk.master, unit := some (spurSite n) }
    portResult s n acc false

/-- A lane loses lock (R526): the reference moves to the other lane. -/
def loseLane (s : State) (n : Nat) (lane : Bool) : State :=
  modPort s n fun x =>
    let l := x.locked &&& (if lane then 1 else 2)
    { x with locked := l, refLane := if l = 0 then x.refLane else l == 2 }

/-- A CONTROL flit (R508, R511): after link-layer start only a retrain request has an effect of its own. -/
def controlFlit (s : State) (n : Nat) (request : BitVec 8) : State :=
  if isUp s n ∧ Config.controlMeaning request = 2 then modPort s n fun x => { x with state := .training } else s

/-! ## Flits (R510 to R518) -/

/-- The acknowledgement and the credits of a flit's header (R513, R518). -/
def takeHeader (s : State) (n : Nat) (f : Flit) : State :=
  let x := getPort s n
  let s := modPort s n fun x =>
    let hit := f.ackValid && x.buffer.contains f.ack
    { x with credits := x.credits + f.credits.toNat,
             buffer := if hit then (x.buffer.dropWhile (· != f.ack)).drop 1 else x.buffer,
             tries := if hit then 0 else x.tries, lastAdv := if hit then s.clk.master else x.lastAdv }
  if x.state = .up then txPump s n else s

/-- Whether an uncorrectable lane codeword touches a flit (R501). -/
def fecBad (f : Flit) : Bool := f.fec.any (·.2)

/-- The lane codewords in error of a flit, counted (R501). -/
def countFec (s : State) (n : Nat) (f : Flit) : State :=
  if f.fec.isEmpty then s
  else modPort s n fun x => { x with
    fec := f.fec.foldl (fun t e => tmod 0 t ((if e.1 then 2 else 0) + (if e.2 then 1 else 0)) (sat32 · 1)) x.fec
    unc := f.fec.foldl (fun t e => if e.2 then tmod [] t (ofBool e.1) fun l => (l ++ [s.clk.master]).drop (l.length - 16) else t) x.unc }

/-- Whether a sequenced flit passes the checks of R514 and R515. -/
def flitGood (f : Flit) : Bool := f.crcOk && f.headerOk && !fecBad f && !f.payloadUe

/-- A port's injection point in the active epoch (R335, R386). -/
def entrySite (s : State) (n : Nat) : Nat := (injectSite (tabOf s s.fab.active) n).getD (spurSite n)

/-- Whether a port's injection point is changing (R389): it is fenced, and the flip that moves the port has not taken effect. -/
def entryMoves (s : State) (n : Nat) : Bool := isFenced s (entrySite s n)

/-- A credit owed for a flit that has left the link block (R518). -/
def creditFlit (s : State) (n : Nat) : State := modPort s n fun x => { x with toReturn := x.toReturn + 1 }

/-- A sequenced flit for which there is buffer space or not (R514, R519): accepted, dropped as a duplicate, or discarded with a REPLAY on the
first discard. -/
def sequenced (s : State) (n : Nat) (f : Flit) (room : Bool) (body : State → State) : State :=
  let x := getPort s n
  if x.state ≠ .up then s
  else
    let s := countFec s n f
    if flitGood f ∧ f.seq = x.rxExp ∧ room then
      let s := modPort s n fun x => { x with rxExp := x.rxExp + 1, asked := false, ackOwed := true }
      body (takeHeader s n f)
    else if flitGood f ∧ f.seq ≠ x.rxExp ∧ (x.rxExp - f.seq).toNat < 2048 then s
    else if x.asked then s
    else putOut (modPort s n fun x => { x with asked := true, replSent := sat32 x.replSent 1 }) (.replayFlit (Fin.ofNat 32 n) x.rxExp)

/-! ## Inbound packets (R521 to R525) -/

/-- A host packet as it enters at an injection point (R521): the point writes the epoch, its own place and the time. -/
def hostPacket (s : State) (n v : Nat) (h : HostPacket) : Packet :=
  { packetOf h.head h.rows v with dstSite := v, epoch := s.fab.active, srcSite := v, injTime := BitVec.ofNat 16 (timeAt s v),
                                  fromPort := some (Fin.ofNat 32 n) }

/-- Where the hall-pass directory of an injection point sends a write that names a pass (R267, R392): none if no open or paused pass has
its number. -/
def passHolder (s : State) (k : Packet) : Option Epid :=
  (s.passDir.find? fun d => d.1.toNat == bits k.op.toNat 105 90).map (·.2)

/-- Whether the injection point accepts a packet of its type for a site (R522). -/
def injectable (k : Packet) : Bool :=
  match k.ptype with
  | 1 => bits k.op.toNat 105 90 != 0 && decide (13312 ≤ k.src.toNat ∧ k.src.toNat < 16383)
  | 3 | 4 | 6 => (tileOfId k.dst.toNat).isSome
  | 7 | 8 => true
  | _ => false

/-- CONTROL requests that wait for the proctor, which holds at most 16 (R894). -/
def controlsHeld (s : State) : Nat := (s.fab.flight.filter fun k => k.toPort.isSome && k.ptype == 9).length

/-- A packet for the port's ring engine (R537, R894): answers and CONTROL requests wait there; the replies to its own reads carry
nothing that the commands of the rings have not brought; any other type is refused. -/
def ringPacket (s : State) (n : Nat) (k : Packet) : State :=
  let k := { k with toPort := some (Fin.ofNat 32 n) }
  if k.ptype = 9 ∧ 16 ≤ controlsHeld s then answer s k (some 0x49)
  else if k.ptype = 7 ∨ k.ptype = 8 ∨ k.ptype = 9 then { s with fab := { s.fab with flight := s.fab.flight ++ [k] } }
  else if k.ptype = 5 then sequencePacket s (12800 + n) k (fun s c k => (s, ctxAfter c k, none))
  else answer s k (some 0x4B)

/-- An inbound packet goes to the site that its destination ID names in the active epoch (R521, R688). -/
def injectTo (s : State) (k : Packet) : State :=
  let (s, r) := routerLookup s k.pos s.fab.active k.dst.toNat
  match r with
  | some (.site u) =>
    if k.ptype ≠ 1 ∧ k.ptype ≠ 7 ∧ k.ptype ≠ 8 ∧ s.brg.phase ≠ 6 then answer s k (some 0x49)
    else launch s { k with dstSite := u }
  | _ => answer s k (some 0x4B)

/-- One inbound packet (R267, R392, R521, R522, R625, R627, R688). -/
def injectPacket (s : State) (n : Nat) (h : HostPacket) : State :=
  let k := hostPacket s n (entrySite s n) h
  if !crcHolds h.head h.rows then answer s k (some 0x48)
  else if k.dst.toNat = 12800 + n then ringPacket s n k
  else if !injectable k then answer s k (some 0x4B)
  else if s.pwr.phase = .nap ∧ k.ptype ≠ 7 ∧ k.ptype ≠ 8 then answer s k (some (if k.ptype = 1 then 0x41 else 0x49))
  else if k.ptype = 1 then
    match passHolder s k with
    | some e => injectTo s { k with dst := e }
    | none => answer s k (some 0x40)
  else injectTo s k

/-- The packets of a flit pass into the mesh, and its credit goes back (R518, R521). -/
def passFlit (s : State) (n : Nat) (ps : List HostPacket) : State := ps.foldl (fun s h => injectPacket s n h) (creditFlit s n)

/-- A DATA flit (R512, R514, R521); the link block holds up to 512 of them, and their credits, while the injection point changes (R519). -/
def dataFlit (s : State) (n : Nat) (f : Flit) : State :=
  let waits := entryMoves s n || !(getPort s n).block.isEmpty
  sequenced s n f (!waits || decide ((getPort s n).block.length < 512)) fun s =>
    if waits then modPort s n fun x => { x with block := x.block ++ [f.packets] } else passFlit s n f.packets

/-- The flits that a link block holds pass into the mesh once the port's injection point has changed (R389, R519). -/
def blockPass (s : State) (n : Nat) : State :=
  if entryMoves s n then s
  else (getPort s n).block.foldl (fun s ps => passFlit s n ps) (modPort s n fun x => { x with block := [] })

/-- A DOORBELL flit (R514, R532): its entries in order; it does not pass the injection point. -/
def bellFlit (s : State) (n : Nat) (f : Flit) (es : List (BitVec 9 × BitVec 32)) : State :=
  sequenced s n f true fun s => es.foldl (fun s e => applyBell s e.1.toNat e.2) (creditFlit s n)

/-- A REPLAY received (R517). -/
def replayFrom (s : State) (n : Nat) (expected : BitVec 12) : State :=
  let x := getPort s n
  if x.state ≠ .up then s
  else putOut (modPort s n fun x => { x with replRecv := sat32 x.replRecv 1 })
    (.resent (Fin.ofNat 32 n) (x.buffer.dropWhile (· != expected)))

/-- 8 µs, 800 T ticks, without an advance (R517): a replay from the oldest; after 8 of them a retrain is due. -/
def replayDue (s : State) (n : Nat) : State :=
  let x := getPort s n
  if x.state ≠ .up ∨ x.buffer.isEmpty ∨ 8 ≤ x.tries ∨ (s.clk.master - x.lastAdv).toNat < 800 then s
  else putOut (modPort s n fun x => { x with tries := x.tries + 1, lastAdv := s.clk.master }) (.resent (Fin.ofNat 32 n) x.buffer)

/-- An IDLE flit (R516): acknowledgement and credits alone. -/
def idleFlit (s : State) (n : Nat) (f : Flit) : State :=
  if !isUp s n then s
  else
    let s := countFec s n f
    if f.crcOk ∧ f.headerOk ∧ !fecBad f then takeHeader s n f else s

/-- The IDLE flit that carries an acknowledgement owed (R516). -/
def sendIdle (s : State) (n : Nat) : State :=
  let x := getPort s n
  if x.state = .up ∧ x.ackOwed then
    putOut (modPort s n fun x => { x with ackOwed := false, toReturn := 0 }) (.idleFlit (Fin.ofNat 32 n) (x.rxExp - 1) x.toReturn)
  else s

/-! ## Time (R528 to R530) -/

/-- A time stamp (R511). -/
def stampOf (t : Tick) (k : BitVec 4) : BitVec 128 := t ++ k ++ (0 : BitVec 60)

/-- A SYNC_REQ (R528, R530): 100 µs are 10,000 T ticks; the answer leaves within 2 µs, 200 T ticks. -/
def syncFlit (s : State) (n : Nat) (t1 : BitVec 128) (k2 : BitVec 4) (ticks3 : BitVec 16) (k3 : BitVec 4) : State :=
  let x := getPort s n
  let soon : Bool := match x.lastSync with | some t => decide ((s.clk.master - t).toNat < 10000) | none => false
  if x.state ≠ .up ∨ soon ∨ 200 < ticks3.toNat then s
  else putOut (modPort s n fun x => { x with lastSync := some s.clk.master })
    (.syncResp (Fin.ofNat 32 n) t1 (stampOf s.clk.master k2) (stampOf (s.clk.master + ticks3.setWidth 64) k3))

/-- A SET (R529): the adjustment is applied to every die's copy with the master, or refused. -/
def setFlit (s : State) (n : Nat) (adj : Word) : State :=
  if !isUp s n then s
  else if adj = 0 ∨ 2 ^ 40 < adj.toNat then putOut s (.setResp (Fin.ofNat 32 n) 2)
  else if !s.clk.setOk then putOut s (.setResp (Fin.ofNat 32 n) 1)
  else putOut { s with clk := { s.clk with master := s.clk.master + adj } } (.setResp (Fin.ofNat 32 n) 0)

/-! ## Commands -/

/-- R503: A port trains its lanes through signal detect, lock, equalisation, framing, measurement and link start. -/
def execPortTraining (n : Port) (saved : Bool) (locked accepted : BitVec 2) (s : State) : Answer :=
  .next (trainPort s n.val saved locked accepted)

/-- R506: A port retrains after lock loss, excess uncorrectable codewords or the replay limit. -/
def execRetrain (n : Port) (cause : RetrainCause) (accepted : BitVec 2) (s : State) : Answer := .next (retrainPort s n.val cause accepted)

/-- R526: A lane loses CDR or frame lock and the port's reference moves to its other lane. -/
def execLaneLockLoss (n : Port) (lane : Bool) (s : State) : Answer := .next (loseLane s n.val lane)

/-- R514: A sequenced DATA flit is checked and accepted or discarded with a REPLAY request. -/
def execData (n : Port) (f : Flit) (s : State) : Answer := .next (dataFlit s n.val f)

/-- R532: A DOORBELL entry updates a doorbell value if it is not stale. -/
def execDoorbell (n : Port) (f : Flit) (entries : List (BitVec 9 × BitVec 32)) (s : State) : Answer := .next (bellFlit s n.val f entries)

/-- R528: A SYNC_REQ is stamped and answered with SYNC_RESP. -/
def execSyncReq (n : Port) (t1 : BitVec 128) (k2 : BitVec 4) (ticks3 : BitVec 16) (k3 : BitVec 4) (s : State) : Answer :=
  .next (syncFlit s n.val t1 k2 ticks3 k3)

/-- R529: A SET adds its adjustment to module time if permitted and answers SET_RESP. -/
def execSetTime (n : Port) (adj : Word) (s : State) : Answer := .next (setFlit s n.val adj)

/-- R517: A received REPLAY makes the sender resend buffered flits from the expected sequence. -/
def execReplay (n : Port) (expected : BitVec 12) (s : State) : Answer := .next (replayFrom s n.val expected)

/-- R517: 8 µs without acknowledgement progress triggers a replay from the oldest buffered flit. -/
def execReplayTimeout (n : Port) (s : State) : Answer := .next (replayDue s n.val)

/-- R516: An IDLE flit delivers acknowledgement and credits only. -/
def execIdle (n : Port) (f : Flit) (s : State) : Answer := .next (idleFlit s n.val f)

/-- R516: 1 µs after accepting a sequenced flit with no acknowledgement sent, an IDLE flit is sent. -/
def execIdleSend (n : Port) (s : State) : Answer := .next (sendIdle s n.val)

/-- R508: A CONTROL flit carries training, FFE tuning or a retrain request. -/
def execControlFlit (n : Port) (request : BitVec 8) (s : State) : Answer := .next (controlFlit s n.val request)

end Sys2Proof.Machine
end

