-- ==== Sys2Proof/Machine/Reload.lean ====
section
/-! DEFINITION. Restoring the units of a placement (R432 to R434, R482, R485, R760, R761). -/

namespace Sys2Proof.Machine

/-- The loam block of a unit, which is named by its ID, the number of its logical site (R330, R332). -/
def blockOf (im : Image) (i : ImgUnit) : Option LoamEntry := im.loam.find? fun b => b.unit.toNat == i.logical.val

/-- A core as a restart leaves it (R760): every register, window, vector register, slot, flag, counter and the fault record
cleared; what the loader bound stays; its receive channels are reset (R761). -/
def restartCore (c : Core) : Core :=
  { core0 with
    profile := c.profile, run := (if c.run = .fenced then .fenced else .stopped), plc := c.plc,
    chans := tmap chan0 (fun _ x => if chRole x = 2 then resetRecv x else x) c.chans
    istore := c.istore, istoreErrs := c.istoreErrs, startPc := c.startPc, pc := c.startPc, bounds := c.bounds, strict := c.strict,
    guards := c.guards, passes := c.passes, outPorts := c.outPorts, inRings := c.inRings, corrected := c.corrected, scrub := c.scrub,
    logical := c.logical }

/-- A unit's registers and units at a restart. -/
def restartUnit (s : State) (u : Nat) : State :=
  let s := modCore s u restartCore
  modEp (if profileOf (kindOf s u) = .m then modM s u freshM else s) u detachOps

/-- The instruction store that loam rows hold (R925). -/
def istoreOf (pr : Profile) (rows : List Nat) : Tbl (BitVec 512) :=
  let body := rows.foldr (fun r acc => r + acc * 2 ^ 4096) 0
  (upFrom 0 (bundleCount pr)).foldl (fun t k =>
    tset 0 t k (BitVec.ofNat 512 (bits body (8 * bundleBytes pr * (k + 1) - 1) (8 * bundleBytes pr * k)))) []

/-- The scratchpad rows that an image defines, in increasing row number (R925). -/
def imageRowsOf (i : ImgUnit) : List ImgRow :=
  i.rows.foldl (fun l r =>
    (l.filter fun x => decide (x.row < r.row)) ++ [r] ++ l.filter fun x => decide (r.row < x.row)) []

/-- Reloading a unit whole from its loam block (R482, R760), a variant's program from the image (R83, assumption 85): false where a row cannot be read from either copy. -/
def reloadWhole (s : State) (p u : Nat) (im : Image) (i : ImgUnit) : State × Bool :=
  match blockOf im i with
  | none =>
    (modCore (fillRows (restartUnit s u) u (i.rows.map fun r => (r.row, r.data))) u fun c =>
      { c with istore := (programOf s i).2.foldl (fun t b => tset 0 t b.1 b.2) [], istoreErrs := [] }, true)
  | some b =>
    let pr := profileOf (kindOf s u)
    let n := istoreRows pr
    let rows := imageRowsOf i
    match blockRows s p b 0 (n + rows.length) with
    | (s, none) => (s, false)
    | (s, some l) =>
      let s := fillRows (restartUnit s u) u ((rows.zip (l.drop n)).map fun r => (r.1.row, BitVec.ofNat 4096 r.2))
      (modCore s u fun c => { c with istore := if varied s i then (programOf s i).2.foldl (fun t b => tset 0 t b.1 b.2) [] else istoreOf pr (l.take n), istoreErrs := [] }, true)

/-- The rows of the windows of a core's hall passes. -/
def inWindow (c : Core) (r : Nat) : Bool := c.passes.any fun h => decide (h.base ≤ r ∧ r < h.base + h.rows)

/-- Restoring a unit that stays in place (R760): fixed rows and hall-pass windows are kept, initial rows rewritten from copy A
or B, every other row zeros with a valid code. -/
def restoreUnit (s : State) (p u : Nat) (im : Image) (i : ImgUnit) : State × Bool :=
  let n := istoreRows (profileOf (kindOf s u))
  let rows := imageRowsOf i
  let c := getCore s u
  let (s, got) : State × Option (List Nat) := match blockOf im i with
    | none => (s, some (rows.map fun (r : ImgRow) => r.data.toNat))
    | some b => blockRows s p b n rows.length
  match got with
  | none => (s, false)
  | some l =>
    let kept := fun (r : Nat) => inWindow c r || (rows.any fun x => x.row == r && x.fixed)
    let init := (rows.zip l).filter fun (x : ImgRow × Nat) => !kept x.1.row
    (fillKeeping (restartUnit s u) u kept (init.map fun (x : ImgRow × Nat) => (x.1.row, BitVec.ofNat 4096 x.2)), true)

/-- Restoring the units of a placement; those of a condition are reloaded whole. False where loam cannot deliver a row. -/
def restoreAll (s : State) (p : Nat) (im : Image) (whole : Nat → Bool) : List ImgUnit → State × Bool
  | [] => (s, true)
  | i :: t =>
    let u := physOf s i.logical.val
    match (if whole u then reloadWhole s p u im i else restoreUnit s p u im i) with
    | (s, false) => (s, false)
    | (s, true) => restoreAll s p im whole t

/-- Restoring a placement with its channels (R433, R434, R760, R761). -/
def restorePlacement (s : State) (p : Nat) (whole : Nat → Bool) : State × Bool :=
  match (getPlc s p).img with
  | none => (s, true)
  | some im =>
    match restoreAll s p im whole im.units with
    | (s, false) => (s, false)
    | (s, true) =>
      let us := coresOf s p
      (us.foldl syncSends (us.foldl stalePeersOf (discardStreams s p)), true)

/-- Every unit of a placement from the loam image, with start bundles armed (R601, R628); it stops where loam fails (R753). -/
def reloadPlacement (s : State) (p : Nat) : State :=
  match restorePlacement s p (fun _ => true) with
  | (s, true) => modPlc s p fun x => { x with armed := some s.clk.master }
  | (s, false) => stopPlacement s p 8

end Sys2Proof.Machine
end

