-- ==== Sys2Proof/Machine/Power.lean ====
section
/-! DEFINITION. Power states, waves, saves, wakes, the thermal trip and the power pins (R612 to R656, R875 to R884), and the
start of the module (R607, R617, R660, R661). -/

namespace Sys2Proof.Machine

/-! ## What a loss of main power leaves -/

/-- The valid save record with the higher sequence (R646): whether it lies in slot B, and the record. -/
def newestSlot (s : State) : Option (Bool × SaveSlot) :=
  let a := s.pwr.slotA
  let b := s.pwr.slotB
  if a.valid ∧ (!b.valid ∨ b.seq < a.seq) then some (false, a) else if b.valid then some (true, b) else none

/-- The sequence number of a report card entry (R782). -/
def entrySeq (w : List Word) : Nat := (w.getD 1 0).toNat / 2 ^ 32
/-- The stamp of a report card entry. -/
def entryStamp (w : List Word) : Nat := (w.getD 0 0).toNat

/-- Whether a slot's entry carries its own CRC (R782, R792). -/
def entryCrcOk (w : List Word) : Bool :=
  let bytes := w.foldr (fun w acc => w.toNat + acc * 2 ^ 64) 0
  w.length == 8 && crc32c (bytes % 2 ^ 480) 60 == (w.getD 7 0).toNat / 2 ^ 32

/-- The slots that pass their CRC at a start; those that fail are ignored and counted (R792). -/
def checkSlots (r : Report) : Report :=
  let good := r.card.filter fun e => entryCrcOk e.2
  { r with card := good, badSlots := sat32 0 (r.card.length - good.length) }

/-- The report after a start (R792, R801): what MRAM holds stays, and the next sequence follows the highest of the card and of
the tail that will be restored. -/
def restartReport (s : State) : Report :=
  let card := s.rpt.card.filter fun e => entryCrcOk e.2
  let tail := match newestSlot s with | some (_, x) => x.tail | none => []
  let seqs := card.map (fun e => entrySeq e.2 + 1) ++ tail.map fun w => entrySeq w + 1
  { report0 with
    card := s.rpt.card, stamp := s.rpt.stamp, fdm := s.rpt.fdm, next := BitVec.ofNat 32 (seqs.foldl max 0) }

/-- The state with the main side off (R616): MRAM, fuses and the AON island stay; everything else is at its reset value. -/
def powerDown (s : State) (st : PowerState) : State :=
  { State.reset with
    pending := s.pending
    free := s.free
    out := s.out
    fuses := s.fuses
    clk := { clock0 with master := s.clk.master, fio := st == .save }
    pwr := { s.pwr with state := st, phase := .startup, request := 0, armed := false, waveSub := [], waveAt := none,
                        wavesEnd := false, railOff := 0, unreg := false, selfRef := false }
    brg := { bringUp0 with savedOk := s.brg.savedOk, saved := s.brg.saved }
    rpt := restartReport s
    exm := { exam0 with pending := s.exm.pending, pendKey := s.exm.pendKey }
    sec := { secure0 with key := s.sec.key, epoch := s.sec.epoch, counter := s.sec.counter, floor := s.sec.floor,
                          slotFloor := s.sec.slotFloor }
    sbd := { sideband0 with strap := s.sbd.strap, target := s.sbd.target, pecReq := s.sbd.pecReq,
                            cause := s.sbd.cause &&& 0x80 } }

/-- An AON reset (R631, R651): PRC_WAKECFG, PRC_WAKESRC, PRC_T0 and MGT_SMB keep their values (R909), and so does the trip latch
(R884). -/
def resetAon (s : State) : State :=
  { s with pwr := { s.pwr with t0Save := false, saving := none, mainSag := false, latched := none } }

/-- Power-on (R617, R884, R909): the AON island's registers take their reset values, and the trip latch is lost with the
auxiliary input. -/
def resetPower (s : State) : State :=
  { resetAon s with
    pwr := { (resetAon s).pwr with wakeEn := power0.wakeEn, wakeAddr := power0.wakeAddr, t0Period := power0.t0Period, trip := none,
                                   tripsRecorded := false }
    sbd := { s.sbd with target := 0x4C + BitVec.setWidth 7 s.sbd.strap, pecReq := false, cause := 0 } }

/-! ## The start (R607, R617, R660, R661, R819) -/

/-- The life-cycle transition that takes effect at this start (R819, R836, R838). -/
def applyLifeCycle (s : State) : State :=
  if s.exm.pending = 7 then s
  else
    let life := s.exm.pending
    let s := { s with fuses := { s.fuses with life := life,
                                              returns := if life = 3 then s.fuses.returns + 1 else s.fuses.returns } }
    let s := match s.exm.pendKey with
      | some k => { s with sec := { s.sec with key := some k, epoch := s.sec.epoch + 1 } }
      | none => s
    let s := if life = 4 then { s with sec := { s.sec with key := none } } else s
    { s with exm := { s.exm with pending := 7, pendKey := none } }

/-- Module time at a cold start (R607). -/
def startTime (s : State) : BitVec 64 :=
  match newestSlot s with
  | some (_, x) => (if x.time ≤ s.rpt.stamp then s.rpt.stamp else x.time) + 1
  | none => if s.rpt.card = [] then 0 else s.rpt.stamp + 1

/-- Whether the last exam passed, as the newest valid record shows it (R661, R816). -/
def savedExamPassed (s : State) : Bool :=
  match newestSlot s with
  | some (_, x) => bits (x.exam.getD 0 0).toNat 63 56 == 1
  | none => false

/-- Whether a start is fast (R661). -/
def startFast (s : State) : Bool := !s.pwr.runMark && savedExamPassed s && s.brg.savedOk

/-- Recording a wake (R639). -/
def recordWake (s : State) (src : WakeSrc) (port : BitVec 5) : State :=
  { s with pwr := { s.pwr with wakeSrc := src, wakePort := port,
                               wakes := if src = .powerOn then 0 else sat8 s.pwr.wakes 1 } }

/-- The module starts (R617, R662 phase 1): fuses read, the fused trims, rail settings and feeder maps in force (R666, R191). -/
def startUp (s : State) : State :=
  let fast := startFast s
  let s := applyLifeCycle s
  let s := { s with
    clk := { clock0 with master := startTime s, fio := true }
    pwr := { s.pwr with state := .startup, phase := .startup, t0Start := startTime s, latched := none, mainSag := false }
    brg := { s.brg with kind := if fast then 1 else 2, startTick := startTime s }
    chk := { s.chk with trims := s.fuses.trims, rails := s.fuses.rails, hour := (startTime s).toNat / 360000000000 }
    exm := { s.exm with skip := false }
    rpt := checkSlots s.rpt }
  let s := s.fuses.maps.foldl (fun s e => modM s e.1 fun m => { m with map0 := e.2.1, map1 := e.2.2 }) s
  match s.pwr.wakeSrc with
  | .brownOut | .watchdog => postEntry s { kind := 0x0A, level := 4, stamp := s.clk.master, action := 0 }
  | _ => s

/-- A wake is taken (R617): the module starts if main is in range. -/
def takeWake (s : State) (src : WakeSrc) (port : BitVec 5) (inRange : Bool) : State :=
  let s := recordWake s src port
  let s := { s with pwr := { s.pwr with pgIn := inRange, latched := none } }
  if inRange then startUp s else { s with pwr := { s.pwr with state := .recess } }

/-- As from off (R617, R884): while the trip latch holds, the module stays in recess and the wake is held. -/
def fromOff (s : State) (src : WakeSrc) (inRange : Bool) : State :=
  match s.pwr.trip with
  | some _ =>
    let s := recordWake s src 0
    { s with pwr := { s.pwr with state := .recess, pgIn := inRange, latched := some (src, 0) } }
  | none => takeWake s src 0 inRange

/-! ## Wakes (R634 to R639) -/

/-- Whether a wake event of a lane can latch (R635, R637): the two-wire comparator matches the wake address in recess alone (R328, R636). -/
def mayLatch (s : State) : Bool := s.pwr.state == .recess || s.pwr.state == .save || s.pwr.phase == .shuttingDown

/-- A wake event latches; the first is recorded, and its source at once where the trip latch holds (R637, R884). -/
def latchWake (s : State) (src : WakeSrc) (port : BitVec 5) : State :=
  if mayLatch s ∧ s.pwr.latched = none then
    let s := { s with pwr := { s.pwr with latched := some (src, port) } }
    if s.pwr.trip.isSome then recordWake s src port else s
  else s

/-! ## Saves (R640 to R650) -/

/-- What a freeze of the save buffer takes (R643). -/
def saveRecord (s : State) (seq : Nat) : SaveSlot :=
  { valid := false, mark := some seq, seq := seq, time := s.clk.master, counter := s.sec.counter, exam := s.exm.status,
    tail := s.rpt.tail, detained := s.chk.detained.map fun d => (d.unit, d.clean, d.fails), trims := s.chk.trims,
    rails := s.chk.rails, deltas := s.brg.seat }

/-- A save begins (R644): its entry is made, the buffer is frozen, the start mark goes to the slot that does not hold the newest
valid record, and the main side goes off. -/
def beginSave (s : State) (cause : BitVec 2) : State :=
  let s := postEntry s { kind := 0x0A, level := 4, stamp := s.clk.master, action := 0 }
  let slot := match newestSlot s with | some (b, _) => !b | none => false
  let r := saveRecord s (match newestSlot s with | some (_, x) => x.seq + 1 | none => 1)
  let now := s.clk.master
  let s := powerDown s .save
  { s with pwr := { s.pwr with
      saving := some (now, slot, cause), saveCause := cause, saveRes := 0, saveSlot := slot, saveDur := 0, t0Save := true,
      slotA := if slot then s.pwr.slotA else r, slotB := if slot then r else s.pwr.slotB } }

/-- Whether main-side stages are on. -/
def mainOn (s : State) : Bool := powered s

/-- A main sag (R617, R641): without an armed save the module loses its main side at once. -/
def mainSagged (s : State) : State :=
  if !mainOn s then s
  else if s.pwr.armed then beginSave s 2
  else powerDown s .recess

/-- The save window ends (R646, R647, R649, R660): a main-sag save leads to recess, an auxiliary-sag save to the brown-out. -/
def endSave (s : State) (header : Bool) (duration : BitVec 11) : State :=
  match s.pwr.saving with
  | none => s
  | some (_, slot, cause) =>
    let done := fun (x : SaveSlot) => if header then { x with valid := true } else x
    { s with
      clk := { s.clk with fio := false }
      pwr := { s.pwr with
        saving := none, t0Save := false, saveRes := (if header then 1 else 2), saveDur := duration,
        runMark := s.pwr.runMark && !header, mainSag := cause == 2,
        state := (if cause = 3 then .save else .recess),
        slotA := if slot then s.pwr.slotA else done s.pwr.slotA,
        slotB := if slot then done s.pwr.slotB else s.pwr.slotB } }

/-- An AON reset (R631, R651, R758): a save in progress is incomplete, and the run marker stays. -/
def aonReset (s : State) (src : WakeSrc) (inRange : Bool) : State :=
  let off := s.pwr.state == .save && s.pwr.saveCause == 3
  let s := if s.pwr.saving.isSome then { s with pwr := { s.pwr with saveRes := 2 } } else s
  let s := resetAon (powerDown s .off)
  if off ∧ src = .brownOut then s else fromOff s src inRange

/-! ## Waves (R619 to R623) -/

/-- Whether the waves may run: clocks locked, in start-up or leaving nap. -/
def wavesDue (s : State) : Bool :=
  !s.clk.gated && !s.pwr.wavesEnd && (s.pwr.phase == .startup && s.pwr.state == .startup || s.pwr.phase == .leavingNap)

/-- A die whose fuse array or exam fails is held in reset (R659, R738, R812). -/
def holdDie (s : State) (d : Nat) : State :=
  if bit s.brg.diesOut.toNat d then s
  else
    let s := ((upFrom 0 32).filter fun r => regionDie r == d).foldl fenceRegion s
    postEntry { s with brg := { s.brg with diesOut := s.brg.diesOut ||| BitVec.ofNat 8 (2 ^ d) } }
      { kind := 0x06, level := 3, stamp := s.clk.master, action := 9,
        unit := some (serviceSite (d % 4 * 2 + d / 4 * 16) (bit s.brg.service2.toNat (d % 4 * 2 + d / 4 * 16))) }

/-- The slot of the next region begins, 25,000 T ticks after the one before (R619); at a die's first region its fuse array is
read (R659). -/
def beginSlot (s : State) (r : Nat) : State :=
  let t0 := s.pwr.waveAt.getD s.clk.master
  if wavesDue s ∧ tget 0 s.pwr.waveSub r = 0 ∧ (r = 0 ∨ tget 0 s.pwr.waveSub (r - 1) ≠ 0)
      ∧ 25000 * r ≤ (s.clk.master - t0).toNat then
    let s := { s with pwr := { s.pwr with waveSub := tset 0 s.pwr.waveSub r 1, waveAt := some t0 } }
    if bit s.fuses.arrayBad.toNat (regionDie r) then holdDie s (regionDie r) else s
  else s

/-- Forcing the safe state and recess for a trip (R883). -/
def tripModule (s : State) : State :=
  let s := powerDown s .recess
  { s with
    pwr := { s.pwr with trip := some s.clk.master, tripsRecorded := true, latched := none }
    sbd := { s.sbd with cause := s.sbd.cause ||| 0x80 } }

/-- Whether any sensor reads 95 °C or more, in steps of 0.125 °C (R884). -/
def anyHot (s : State) : Bool :=
  s.rpt.temps.any (fun e => decide (760 ≤ e.2)) || s.rpt.stackTemps.any (fun e => decide (760 ≤ e.2))
    || decide (760 ≤ s.rpt.procTemp)

/-- The end of the waves: after a trip, the sensors decide whether the module trips again (R884). -/
def endWaves (s : State) : State :=
  let s := { s with pwr := { s.pwr with wavesEnd := true } }
  if s.pwr.tripsRecorded then
    if anyHot s then tripModule s else { s with pwr := { s.pwr with tripsRecorded := false } }
  else s

/-- Sub-wave n of a region's slot (R620): 5,000 T ticks apart; the last ends the region's slot and, in RG31, the waves. -/
def powerRow (s : State) (r n : Nat) : State :=
  let t0 := s.pwr.waveAt.getD s.clk.master
  if wavesDue s ∧ tget 0 s.pwr.waveSub r = n + 1 ∧ 25000 * r + 5000 * n ≤ (s.clk.master - t0).toNat then
    let s := { s with pwr := { s.pwr with waveSub := tset 0 s.pwr.waveSub r (n + 2) } }
    if r = 31 ∧ n = 4 then endWaves s else s
  else s

/-- Whether a region's core rail is up. -/
def railUp (s : State) (r : Nat) : Bool := tget 0 s.pwr.waveSub r == 6 && !bit s.pwr.railOff.toNat r

/-- R623. -/
def railFails (s : State) (r : Nat) : State :=
  if wavesDue s ∧ 2 ≤ tget 0 s.pwr.waveSub r ∧ !bit s.pwr.railOff.toNat r then removeRegion s r 6 else s

/-- R876: a region's rail in service fences the region (R47); any other keeps PG_OUT low. A fault of a region's clock spine fences it in the
same way (R47, assumption 90). -/
def railLost (s : State) (r : RailLoss) : State :=
  if !mainOn s then s
  else match r with
    | .region r => if railUp s r.val then removeRegion s r.val 0x0A else s
    | .spine r => if railUp s r.val then removeRegion s r.val 1 else s
    | .other => { s with pwr := { s.pwr with unreg := true } }

/-! ## Nap, leaving nap and the orderly shutdown (R625 to R628, R642, R805) -/

/-- Whether no recovery, load, unload or export keeps a nap or recess request waiting (R625, R642). -/
def requestReady (s : State) : Bool :=
  (s.rcv.runs.all fun e => e.2.isNone) && s.rcv.raised.isEmpty && (s.plcs.all fun e => e.2.state != .recovering)
    && (s.cmds.all fun c => !c.started) && s.xport.isNone

/-- Every placement in service is drained (R625 step 3). -/
def drainAll (s : State) : State :=
  s.plcs.foldl (fun s e => if e.2.state = .running ∧ e.2.drain = none then startContextDrain s e.1 false else s) s

/-- Whether every placement has drained. -/
def drainedAll (s : State) : Bool :=
  s.plcs.all fun e => match e.2.state with
    | .napping => true | .stopped => true | .absent => true
    | _ => false

/-- The contents that nap loses (R626): scratchpads, instruction stores, arrival counters and what routers hold. -/
def loseSrams (s : State) : State :=
  { s with
    scratch := store0
    cores := tmap core0 (fun _ c => { c with istore := [], istoreErrs := [], gpr := [], win := [], vec := [], slots := [], counters := [] }) s.cores
    fab := { s.fab with flight := [], eps := s.fab.eps.filter fun e => decide (12800 ≤ e.1) } }

/-- Nap entry (R625): a request that waits, the drains, and steps 4 to 7 once every placement has drained. -/
def napStep (s : State) : State :=
  if s.pwr.phase = .run ∧ s.pwr.request = 1 then
    if requestReady s then drainAll { s with pwr := { s.pwr with phase := .enteringNap } } else s
  else if s.pwr.phase = .enteringNap ∧ drainedAll s then
    let s := s.plcs.foldl (fun s e => pauseDoors s e.1 true) s
    let s := loseSrams s
    { s with pwr := { s.pwr with state := .nap, phase := .nap, request := 0, selfRef := true, waveSub := [], waveAt := none,
                                 wavesEnd := false } }
  else s

/-- Reloading the placements that stay resident over a nap (R628). -/
def reloadNapping (s : State) : State :=
  s.plcs.foldl (fun s e => if e.2.state = .napping then reloadPlacement s e.1 else s) s

/-- Leaving nap (R628): the waves begin; once they have ended, the stacks, the tables and the units come back. -/
def leaveNapStep (s : State) : State :=
  if s.pwr.phase = .nap ∧ s.pwr.request = 2 then { s with pwr := { s.pwr with phase := .leavingNap } }
  else if s.pwr.phase = .leavingNap ∧ s.pwr.wavesEnd then
    let s := { s with pwr := { s.pwr with selfRef := false } }
    let s := reloadNapping (startFabricDrain s id)
    { s with pwr := { s.pwr with state := .run, phase := .run, request := 0 } }
  else s

/-- The exam status word 0 for a result and an occasion (R816). -/
def examWord (result occasion : Nat) : Word := BitVec.ofNat 64 (fields [(result, 56), (occasion, 54)])

/-- Moving tail entries into their slots in sequence order (R788, R790). -/
def persist (s : State) : Nat → State
  | 0 => s
  | n + 1 =>
    match s.rpt.tail with
    | [] => s
    | w :: t =>
      let stamp := BitVec.ofNat 64 (entryStamp w)
      persist { s with rpt := { s.rpt with tail := t, card := tset [] s.rpt.card (entrySeq w % 16384) w,
                                           stamp := if s.rpt.stamp ≤ stamp then stamp else s.rpt.stamp } } n

/-- The orderly shutdown (R805): the drains, then the tail and the exam or its skipping, then the save. -/
def recessStep (s : State) : State :=
  if (s.pwr.phase = .run ∨ s.pwr.phase = .nap) ∧ s.pwr.request = 3 then
    if requestReady s then drainAll { s with pwr := { s.pwr with phase := .shuttingDown } } else s
  else if s.pwr.phase = .shuttingDown ∧ drainedAll s then
    if s.exm.shutdown = 0 then
      let s := persist (s.plcs.foldl (fun s e => pauseDoors s e.1 true) s) s.rpt.tail.length
      if s.exm.skip then { s with exm := { s.exm with status := (examWord 5 1) :: List.replicate 7 0, shutdown := 2 } }
      else { s with exm := { s.exm with status := (examWord 4 1) :: List.replicate 7 0, shutdown := 1 } }
    else if s.exm.shutdown = 2 then beginSave s 1
    else s
  else s

/-- Whether PWR_STATE accepts a request (R642). -/
def mayRequest (s : State) (q : BitVec 2) : Bool :=
  s.pwr.request == 0 && match s.pwr.phase with
    | .run => q == 1 || q == 3
    | .nap => q == 2 || q == 3
    | _ => false

/-- A request by one of the commands of its own, taken where none is pending. -/
def request (s : State) (q : BitVec 2) : State :=
  if mayRequest s q then { s with pwr := { s.pwr with request := q } } else s

/-! ## Sensors (R785, R880, R882) -/

/-- A service tile's readings of its region, its stack and the proctor die. -/
def readSensors (s : State) (r : Nat) (temp stackTemp procTemp : Int) (volts : Nat) : State :=
  if !mainOn s then s
  else
    let s := { s with rpt := { s.rpt with temps := tset 0 s.rpt.temps r temp, stackTemps := tset 0 s.rpt.stackTemps r stackTemp,
                                          volts := tset 0 s.rpt.volts r volts, procTemp := procTemp } }
    if 800 ≤ temp ∨ 800 ≤ procTemp ∨ 760 ≤ stackTemp then raiseCause s 1 else s

/-! ## Pins (R598, R876, R878, R883) -/

/-- PG_OUT (R876). -/
def pgOut (s : State) : Bool :=
  (match s.pwr.state with
   | .run => true | .nap => true | .startup => s.pwr.wavesEnd
   | _ => false) && !s.pwr.unreg && !s.clk.safe
/-- The causes of MGT_ALERT word 0 as they read (R878): bits 0 and 2 follow the state. -/
def alertCauses (s : State) : BitVec 8 :=
  (s.sbd.cause &&& 0xFA) ||| BitVec.ofNat 8 (ofBool (s.clk.safe && mainOn s) + 4 * ofBool (s.brg.below && !s.brg.accepted))
/-- ALERT_N is low (R868, R878). -/
def alerting (s : State) : Bool :=
  match s.pwr.state with
  | .off => false
  | .recess => false
  | .save => true
  | _ => bit (alertCauses s).toNat 0 || alertCauses s &&& 0xFE &&& ~~~s.sbd.mask != 0
/-- THERMTRIP_N is low. -/
def tripping (s : State) : Bool := s.pwr.trip.isSome

/-! ## Commands -/

/-- R617: The auxiliary input rises above 11.4 V and the AON island starts. -/
def execPowerOn (mainInRange : Bool) (s : State) : Answer :=
  .next (if s.pwr.state = .off then fromOff (resetPower s) .powerOn mainInRange else s)

/-- R634: In recess the comparator matches the wake address and latches a wake event. -/
def execTwoWireWake (address : BitVec 7) (s : State) : Answer :=
  .next (if s.pwr.state = .recess ∧ bit s.pwr.wakeEn.toNat 0 ∧ address = s.pwr.wakeAddr then latchWake s .twoWire 0 else s)

/-- R635: In recess a lane leaving electrical idle for 1 µs latches a wake event. -/
def execLinkSignalWake (n : Port) (s : State) : Answer :=
  .next (if bit s.pwr.wakeEn.toNat 1 ∧ !fusedOff s n.val then latchWake s .link (BitVec.ofNat 5 n.val) else s)

/-- R617: A latched wake is taken and the module starts if the main input is in range within 1 s. -/
def execWake (mainInRange : Bool) (s : State) : Answer :=
  .next (match s.pwr.latched with
    | some (src, port) => if s.pwr.state = .recess ∧ s.pwr.trip = none then takeWake s src port mainInRange else s
    | none => s)

/-- R617: Main returns and stays in range 100 ms after a main-sag save, and start-up begins. -/
def execMainReturn (s : State) : Answer :=
  .next (if s.pwr.state = .recess ∧ s.pwr.mainSag ∧ s.pwr.trip = none then takeWake s .saveResume 0 true else s)

/-- R640: The main input stays below 45.0 V for 2 µs. -/
def execMainSag (s : State) : Answer := .next (mainSagged s)

/-- R640: The auxiliary input stays below 10.8 V for 2 µs. -/
def execAuxiliarySag (s : State) : Answer := .next (if mainOn s ∧ s.pwr.armed then beginSave s 3 else s)

/-- R647: T0 ends the 10 ms save window, leaving an unfinished slot invalid. -/
def execSaveWindowEnd (headerWritten : Bool) (duration : BitVec 11) (s : State) : Answer :=
  .next (endSave s headerWritten duration)

/-- R631: The AON rail stays below 0.72 V for 1 µs and the AON island resets. -/
def execBrownOut (mainInRange : Bool) (s : State) : Answer :=
  .next (if s.pwr.state = .off then s else aonReset s .brownOut mainInRange)

/-- R651: The T0 watchdog reaches its period and the AON island resets. -/
def execT0Expiry (mainInRange : Bool) (s : State) : Answer :=
  .next (if mainOn s ∧ s.pwr.t0Period.toNat * 100000 ≤ (s.clk.master - s.pwr.t0Start).toNat then aonReset s .watchdog mainInRange else s)

/-- R883: A sensor over its trip limit for 10 µs forces the safe state and recess without a save. -/
def execThermalTrip (s : State) : Answer := .next (if mainOn s then tripModule s else s)

/-- R884: The trip latch clears 10 s after the trip and a held wake is taken. -/
def execTripLatchClear (mainInRange : Bool) (s : State) : Answer :=
  .next (match s.pwr.trip with
    | none => s
    | some _ =>
      let s := { s with pwr := { s.pwr with trip := none } }
      match s.pwr.latched with
      | some (src, port) => takeWake s src port mainInRange
      | none => s)

/-- R785: Every 100 µs the service tile refreshes temperature and voltage readings. -/
def execSensorRefresh (r : Region) (temp stackTemp proctorTemp : Int) (volts : Nat) (s : State) : Answer :=
  .next (readSensors s r.val temp stackTemp proctorTemp volts)

/-- R875: PG_IN stays low for 2 µs while power stages are on and is handled as a main sag. -/
def execPgInLow (s : State) : Answer :=
  .next (if mainOn s then mainSagged { s with pwr := { s.pwr with pgIn := false } } else s)

/-- R877, R589: LINK_RST_N held low for 10 µs resets every port and declares source failure; no port is up, so the host's choice ends. -/
def execLinkReset (s : State) : Answer :=
  .next (if mainOn s then
      let s := { s with
        ports := tmap port0 (fun _ x => { port0 with state := (if x.state = .fenced then .fenced else .untrained),
                                                     savedSet := x.savedSet, fallback := x.fallback }) s.ports
        pwr := { s.pwr with linkRst := false }
        clk := { s.clk with choice := false } }
      loseReference s
    else s)

/-- R877: LINK_RST_N rises and the ports train again as in a cold start. -/
def execLinkResetRelease (s : State) : Answer := .next { s with pwr := { s.pwr with linkRst := true } }

/-- R597, R817: The clock monitor declares source failure and the module stops, self-refreshes HBM and gates clocks; a shutdown
exam ends as incomplete, and the save runs. -/
def execSourceFailure (_cause : SourceCause) (s : State) : Answer :=
  .next (if mainOn s ∧ s.exm.shutdown = 1 then
      beginSave { s with exm := { s.exm with status := (examWord 3 1) :: List.replicate 7 0, shutdown := 2 } } 1
    else loseReference s)

/-- R625: A nap request drains placements, self-refreshes HBM and turns region rails off. -/
def execNap (s : State) : Answer := .next (napStep (request s 1))

/-- R628: A leave-nap request runs the waves, rewrites tables and reloads every placement. -/
def execLeaveNap (s : State) : Answer := .next (leaveNapStep (request s 2))

/-- R805: A recess request runs the orderly shutdown with exam and save, then enters recess. -/
def execRecess (s : State) : Answer := .next (recessStep (request s 3))

/-- R619: A region's wave slot begins 250 µs after the previous one. -/
def execWaveSlot (r : Region) (s : State) : Answer := .next (beginSlot s r.val)

/-- R620: A sub-wave powers one cluster row of a region with soft-start. -/
def execSubWave (r : Region) (sub : Fin 5) (s : State) : Answer := .next (powerRow s r.val sub.val)

/-- R623: A region rail not in regulation 40 µs after its sub-wave is turned off and the region fenced. -/
def execRailRegulationTimeout (r : Region) (s : State) : Answer := .next (railFails s r.val)

/-- R876: In service a rail leaves regulation; PG_OUT falls within 1 µs and a region whose rail failed is fenced (R47). -/
def execRailLeavesRegulation (r : RailLoss) (s : State) : Answer := .next (railLost s r)

end Sys2Proof.Machine
end

