-- ==== Sys2Proof/Machine/BringUp.lean ====
section
/-! DEFINITION. Bring-up and grading (R657 to R690), the exam (R804 to R817): training of edge links and HBM channels, exam, roll
call, reconciliation, seating at start-up and the ready phase. -/

namespace Sys2Proof.Machine

/-- Whether a start is under way with the waves behind it (R662 phases 5 to 10). -/
def starting (s : State) : Bool := s.pwr.state == .startup && s.pwr.wavesEnd && !s.clk.gated

/-- Whether this start runs an exam (R804, R820). -/
def examDue (s : State) : Bool := s.brg.kind == 2 && s.fuses.life != 4

/-- The phase that BRG_STATUS shows (R689). -/
def phaseCode (s : State) : Nat :=
  if s.brg.phase = 6 then 6
  else if s.clk.state = .locking then 0
  else if !s.pwr.wavesEnd then 1
  else if s.sec.fwRunning.isNone then 2
  else if examDue s ∧ !s.brg.examOk then 3
  else if !s.brg.rolled then 4
  else 5

/-! ## Edge links and HBM channels (R667 to R674) -/

/-- The mode of an edge link by its failed wires in each group (R668). -/
def linkMode (failed : List Nat) : LinkMode :=
  let n := (failed.filter fun k => decide (2 < k)).length
  if n = 0 then .full else if n ≤ 4 then .half else .disabled

/-- Whether a tile has an edge link that may be in use: a facing tile, and neither end fenced (R23, R670). -/
def linkUsable (s : State) (u : Nat) : Bool :=
  isEdgeTile u && match facingTile u with | some v => !isFenced s u && !isFenced s v | none => false

/-- An edge link's saved settings. -/
def saveLink (s : State) (key : Nat) (v : Option Word) : State :=
  { s with brg := { s.brg with saved := { s.brg.saved with links := tset none s.brg.saved.links key v } } }

/-- Whether a link may be trained now: at a start, or in service while no placement that reserves it runs (R671). -/
def linkFree (s : State) (key : Nat) : Bool :=
  starting s || (s.brg.phase == 6 && s.plcs.all fun e => !reservesEdge s e.1 key || e.2.state != .running)

/-- The result of training one edge link; saved settings that fail lead to a full training (R664), whose settings are saved. -/
def trainLink (s : State) (u : Nat) (link saved : Bool) (failed : List Nat) : State :=
  let m := linkMode failed
  let key := edgeLinkKey u (ofBool link)
  let saved := saved && s.brg.kind == 1 && (tget none s.brg.saved.links key).isSome
  if !linkUsable s u || !railUp s (regionOf u) || !linkFree s key then s
  else if saved && m != .full then saveLink { s with brg := { s.brg with savedBad := sat8 s.brg.savedBad 1 } } key none
  else
    let s := if saved then s else { saveLink s key (some (Config.trainedSettings s.free)) with free := s.free + 1 }
    let old := tget .full s.brg.links key
    let s := setEdgeLink s u (ofBool link) m
    if old = m then s else postEntry s { kind := 0x07, stamp := s.clk.master, unit := some u }

/-- A unit that a start fences (R679): with its bit in the field defect map, or without. -/
def fenceAtStart (s : State) (u : Nat) (st : UnitState) : State := fenceUnitWith s u fun s => markOut s u st

/-- A channel's saved settings. -/
def saveChan (s : State) (key : Nat) (v : Option ChanSettings) : State :=
  { s with brg := { s.brg with saved := { s.brg.saved with chans := tset none s.brg.saved.chans key v } } }

/-- Whether a channel may train with saved settings (R661, R674): on a fast start, and with its stack within 25 °C, 200 steps, of the
temperature that every channel's settings of it record. -/
def chanSaved (s : State) (t : Nat) (ch : Bool) : Bool :=
  let near := fun (x : ChanSettings) =>
    let d := tget 0 s.rpt.stackTemps (t / 16) - x.temp
    decide (-200 ≤ d ∧ d ≤ 200)
  s.brg.kind == 1 && (tget none s.brg.saved.chans (2 * t + ofBool ch)).isSome
    && s.brg.saved.chans.all fun e => decide (e.1 / 32 ≠ t / 16) || (match e.2 with | some x => near x | none => true)

/-- The result of training a channel (R672, R673, R674): one beyond repair fences its port tile; a full training saves its settings. -/
def trainChannel (s : State) (t : Nat) (ch saved : Bool) (pins : List Nat) (trained : Bool) : State :=
  let good := trained && decide (pins.length ≤ 2)
  let key := 2 * t + ofBool ch
  let saved := saved && chanSaved s t ch
  if !starting s || s.brg.rolled || !railUp s (t / 16) then s
  else if saved && !good then saveChan { s with brg := { s.brg with savedBad := sat8 s.brg.savedBad 1 } } key none
  else if saved then s
  else if good then
    let x := { timing := Config.trainedSettings s.free, repairs := pins, temp := tget 0 s.rpt.stackTemps (t / 16) }
    { saveChan s key (some x) with free := s.free + 1 }
  else fenceAtStart s (tileSite t) .rollFail

/-! ## The exam (R804 to R816) -/

/-- Whether an exam passes (R811). -/
def examPasses (f : ExamFindings) : Bool :=
  f.complete && f.diesFailed == 0 && f.regsFailed == 0 && !f.moduleFail

/-- A saved trim raised for a unit that fails only at 0.66 V, within CHK_MARGIN and R35 (R810). -/
def raiseTrim (s : State) (u : Nat) : State × Nat :=
  if isCoreKind (kindOf s u) ∧ trimOf s u < s.chk.maxTrim.toNat ∧ railOf s (regionOf u) * 100 + (trimOf s u + 1) * 625 ≤ 85000 then
    ({ s with chk := { s.chk with trims := tmod 0 s.chk.trims u (· + 1) } }, 1)
  else (s, 0)

/-- The findings of units (R810): bits of the field defect map, and trims raised. -/
def examUnits (s : State) (f : ExamFindings) : State × Nat × Nat :=
  let bad := f.unitsFailed.filter fun u => (kindOf s u.val).isSome
  let s := bad.foldl (fun s u => setFdm s u.val) s
  let (s, n) := f.unitsLow.foldl (fun (a : State × Nat) u => let (s, k) := raiseTrim a.1 u.val; (s, a.2 + k)) (s, 0)
  (s, bad.length, n)

/-- The saved settings that the exam invalidates (R810): those of failed lanes, and of the links and channels of failed wires and pins. -/
def dropSaved (s : State) (f : ExamFindings) : State :=
  let x := s.brg.saved
  let links := f.wiresFailed.map fun e => edgeLinkKey e.1.val (ofBool e.2.1)
  let chans := f.pinsFailed.map fun e => 2 * e.1.val + ofBool e.2.1
  { s with brg := { s.brg with saved := {
      lanes := x.lanes.filter fun e => !bit f.lanesFailed.toNat e.1
      links := x.links.filter fun e => !links.contains e.1
      chans := x.chans.filter fun e => !chans.contains e.1 } } }

/-- EXM_STATUS after an exam (R816). -/
def examStatus (s : State) (f : ExamFindings) (occasion units trims : Nat) : List Word :=
  let res := if !f.complete then 3 else if examPasses f then 1 else 2
  let code := if examPasses f then 0 else f.firstCode.toNat
  [BitVec.ofNat 64 (fields [(res, 56), (occasion, 54), (code, 40), (f.diesFailed.toNat, 32), (f.regsFailed.toNat, 0)]),
   s.clk.master, f.lanesFailed,
   BitVec.ofNat 64 (fields [(units % 65536, 48), (trims % 65536, 32), (f.pinsFailed.length % 65536, 16), (f.wiresFailed.length % 65536, 0)]),
   0, 0, 0, 0]

/-- The ports of the failed connectors are fenced, the timing port last by its handover (R495, R814). -/
def fenceConnectors (s : State) (conn : BitVec 2) : State :=
  (upFrom 0 32).foldl (fun s n => if bit conn.toNat (n / 16) then fencePortAlone s n else s) s

/-- What a slow start does with an exam's failures (R812, R813, R814). -/
def confirmExam (s : State) (f : ExamFindings) : State :=
  let s := (upFrom 0 32).foldl (fun s r => if bit f.regsFailed.toNat r then removeRegion s r 6 else s) s
  let s := (upFrom 0 8).foldl (fun s d => if bit f.diesFailed.toNat d then holdDie s d else s) s
  let s := fenceConnectors s f.connFailed
  if f.moduleFail then { s with clk := { s.clk with safe := true } } else { s with brg := { s.brg with examOk := true } }

/-- The exam, at an orderly shutdown or a slow start (R804). -/
def runExam (s : State) (f : ExamFindings) : State :=
  if s.pwr.phase = .shuttingDown ∧ s.exm.shutdown = 1 then
    let (s, n, k) := examUnits s f
    let s := dropSaved s f
    startFabricDrain { s with exm := { s.exm with status := examStatus s f 1 n k, shutdown := 2 } } id
  else if starting s ∧ examDue s ∧ !s.brg.examOk ∧ !s.brg.rolled ∧ s.sec.fwRunning.isSome then
    let (s, n, k) := examUnits s f
    let s := dropSaved s f
    confirmExam (startFabricDrain { s with exm := { s.exm with status := examStatus s f 2 n k } } id) f
  else s

/-! ## Roll call (R675 to R678) -/

/-- A skip index of MAT_FEEDMAP (R191): a row group's 6 bits or a column group's 7. -/
def setSkip (m : MCore) (col : Bool) (g i : Nat) : MCore :=
  let put := fun (w : Word) (n k v : Nat) =>
    BitVec.ofNat 64 (w.toNat - bits w.toNat (n * k + n - 1) (n * k) * 2 ^ (n * k) + v * 2 ^ (n * k))
  if col then { m with map1 := put m.map1 7 (g % 4) (min i 64) } else { m with map0 := put m.map0 6 g (min i 32) }

/-- Whether a group of an M-core can still be repaired (R193): its skip index is that of an unrepaired group, and no member of it is known
to be faulty. -/
def groupFree (m : MCore) (col : Bool) (g : Nat) : Bool :=
  (if col then bits m.map1.toNat (7 * (g % 4) + 6) (7 * (g % 4)) == 64 else bits m.map0.toNat (6 * g + 5) (6 * g) == 32)
    && !m.arrayBad.any fun e => e.1 == col && e.2.1 == Fin.ofNat 8 g

/-- A repair that roll call makes (R677): an M-core whose group is spent fails instead. -/
def rollRepair (s : State) (n : Nat) (col : Bool) (g i : Nat) : State :=
  let u := mcoreSite n
  if groupFree (getM s u) col g then
    let s := modM s u fun m => { setSkip m col g i with arrayBad := m.arrayBad ++ [(col, Fin.ofNat 8 g, i)] }
    postEntry s { kind := 0x06, stamp := s.clk.master, unit := some u, action := 4 }
  else { s with brg := { s.brg with failed := s.brg.failed ++ [toSite u] } }

/-- Roll call (R675): what fails; a cluster router that fails fences its region (R676). -/
def rollCall (s : State) (failed : List Site) (routers : List Region) (repairs : List (MNum × Bool × Fin 8 × Nat)) : State :=
  if starting s ∧ !s.brg.rolled ∧ s.sec.fwRunning.isSome ∧ (!examDue s || s.brg.examOk) then
    let s := routers.foldl (fun s r => removeRegion s r.val 6) s
    let s := { s with brg := { s.brg with rolled := true, failed := failed.filter fun u => (kindOf s u.val).isSome } }
    repairs.foldl (fun s e => rollRepair s e.1.val e.2.1 e.2.2.1.val e.2.2.2) s
  else s

/-! ## Reconciliation (R679) -/

/-- One unit that the fuses, the field defect map or roll call names. -/
def reconcileUnit (s : State) (u : Nat) : State :=
  let fused := s.fuses.bad.any fun v => v.val == u
  let mapped := s.rpt.fdm.any fun v => v.val == u
  let fails := s.brg.failed.any fun v => v.val == u
  if isFenced s u ∨ (kindOf s u).isNone then s
  else
    let odd := fun (s : State) => { postEntry s { kind := 0x06, stamp := s.clk.master, unit := some u, action := 0 } with
      brg := { s.brg with inconsistent := sat32 s.brg.inconsistent 1 } }
    if fused then fenceAtStart (if fails then s else odd s) u .fusedBad
    else if mapped then fenceAtStart (if fails then s else odd s) u .fieldDefect
    else if fails then
      let s := setFdm (fenceAtStart s u .rollFail) u
      let (level, act, sub) := removal s u
      let s := postEntry s { kind := 0x06, level := level, stamp := s.clk.master, unit := some u, subst := sub, action := act, flags := 12 }
      { s with brg := { s.brg with fencedUnits := sat16 s.brg.fencedUnits 1 } }
    else s

/-- Every unit that one of the three names. -/
def reconcileUnits (s : State) : State :=
  ((s.fuses.bad ++ s.rpt.fdm ++ s.brg.failed).map (·.val)).foldl reconcileUnit s

/-! ## Seating at start-up (R681) -/

/-- Step 3's repair: while the share is not met and a spare's own site is filled by a delta, that delta is dropped. -/
def dropDeltas (ds : List (Site × Site)) (spares : List Nat) (short : Nat) : Nat → List (Site × Site) × List Nat
  | 0 => (ds, spares)
  | n + 1 =>
    if short = 0 then (ds, spares)
    else match spares.find? fun u => ds.any fun d => d.1.val == u with
      | none => (ds, spares)
      | some u =>
        -- the delta's former unit takes its own site, or is a spare in its turn where another delta fills that site
        let moved := (ds.find? fun d => d.1.val == u).map (·.2.val)
        let ds := ds.filter fun d => d.1.val != u
        match moved with
        | some v => if ds.any fun d => d.1.val == v then dropDeltas ds (spares.filter (· != u) ++ [v]) short n
                    else dropDeltas ds (spares.filter (· != u)) (short - 1) n
        | none => (ds, spares)

/-- The seating plan of one region and kind: the deltas that stay, and the spares. -/
def planKind (s : State) (r kind : Nat) (deltas : List (Site × Site)) : List (Site × Site) × List Nat :=
  let good := (spareOrder s kind r).filter fun u => !isFenced s u
  let ds := deltas.filter fun d => good.contains d.2.val && d.1.val != d.2.val
  let free := good.filter fun u => !ds.any fun d => d.2.val == u
  let covered := free.filter fun u => ds.any fun d => d.1.val == u
  let left := shareOf s kind r - ds.length
  let own := free.filter fun u => !covered.contains u
  let spares := covered ++ own.take (own.length - left)
  dropDeltas ds spares (left - (free.length - spares.length)) (ds.length + 1)

/-- Every region's plan. -/
def seatAll (s : State) (deltas : List (Site × Site)) : State :=
  let plans := (upFrom 0 32).flatMap fun r => (upFrom 0 3).map fun k => planKind s r k deltas
  { s with brg := { s.brg with seat := plans.flatMap (·.1), spares := (plans.flatMap (·.2)).map toSite } }

/-- The units of a kind that a region seats. -/
def seatedCount (s : State) (kind r : Nat) : Nat :=
  ((kindSites s r (coreKindOf kind)).filter fun l => (seatOf s l).isSome).length

/-! ## Restoring the saved state (R665, R666) -/

/-- The restored tail goes to the persistent card (R665); a slot that holds a later entry stays. -/
def restoreTail (s : State) (tail : List (List Word)) : State :=
  tail.foldl (fun s w =>
    let k := entrySeq w % 16384
    let held := tget [] s.rpt.card k
    if held ≠ [] ∧ entrySeq w < entrySeq held then s
    else
      let stamp := BitVec.ofNat 64 (entryStamp w)
      { s with rpt := { s.rpt with card := tset [] s.rpt.card k w, stamp := if s.rpt.stamp ≤ stamp then stamp else s.rpt.stamp } }) s

/-- Restored trims (R666), with the steps that this start's exam has added to the fused ones (R810), within R35. -/
def restoredTrims (s : State) (t : Tbl Nat) : Tbl Nat :=
  let t := s.chk.trims.foldl (fun t e => tmod 0 t e.1 (· + (e.2 - tget 0 s.fuses.trims e.1))) t
  tmap 0 (fun u n => if isFenced s u then 0 else min n (min 8 ((85000 - railOf s (regionOf u) * 100) / 625))) t

/-- The newest valid record is restored (R665), but for the seating deltas and, after a slow start, the exam status. -/
def restoreSaved (s : State) : State :=
  match newestSlot s with
  | none => s
  | some (_, x) =>
    let s := restoreTail s x.tail
    let s := { s with
      chk := { s.chk with rails := x.rails, detained := (x.detained.filter fun (d : Site × Nat × Nat) => !isFenced s d.1.val).map fun (d : Site × Nat × Nat) =>
        { unit := d.1, out := s.brg.seat.any (fun e => e.1 == d.1), clean := d.2.1, fails := d.2.2, action := 0,
          since := s.clk.master, lastQuiz := s.clk.master } }
      sec := { s.sec with counter := if s.sec.counter ≤ x.counter then x.counter else s.sec.counter }
      exm := { s.exm with status := if s.brg.examOk then s.exm.status else x.exam } }
    { s with chk := { s.chk with trims := restoredTrims s x.trims } }

/-! ## Grade (R685) and the ready phase -/

/-- Whether a region stays in service. -/
def regionIn (s : State) (r : Nat) : Bool := !bit s.brg.regionsOut.toNat r

/-- The port tiles fenced on their own. -/
def tilesOut (s : State) : Nat :=
  ((upFrom 0 512).filter fun t => regionIn s (t / 16) && isFenced s (tileSite t)).length

/-- The causes of BRG_STATUS word 0 (R685): bit 0 a share not seated, 1 a region fenced, 2 a die in reset, 3 a port tile or stack. -/
def gradeCause (s : State) : BitVec 4 :=
  let share := (upFrom 0 32).any fun r => regionIn s r && (upFrom 0 3).any fun k => decide (seatedCount s k r < shareOf s k r)
  let region := (upFrom 0 32).any fun r => !regionIn s r && !bit s.brg.diesOut.toNat (regionDie r)
  BitVec.ofNat 4 (ofBool share + 2 * ofBool region + 4 * ofBool (s.brg.diesOut != 0) + 8 * ofBool (tilesOut s != 0))

/-- The alias table that the proctor writes (R336): one entry for each remote module alias that has a module number. -/
def aliasTable : Tbl (Option (BitVec 12)) := (upFrom 0 3071).filterMap fun k => (Config.remoteModule k).map fun m => (k, some m)

/-- The routing tables of a start (R330 to R336, R923): the deltas' IDs, the ports that are up and their injection points. -/
def startTables (s : State) (t : Tables) : Tables :=
  let moved := s.brg.seat.foldl (fun m d => tput m d.2.val (0 : BitVec 20)) []
  let moved := s.brg.seat.foldl (fun m d => tput m d.1.val (siteEntry d.2.val)) moved
  portEntries s { t with written := true, route := moved, remote := aliasTable }

/-- How many edge links are in a mode. -/
def linksIn (s : State) (m : LinkMode) : Nat := (s.brg.links.filter fun e => e.2 == m).length

/-- The first part of phase 10: reconcile, seat, restore, decide the grade, and begin the fabric drain (R662, R348). -/
def reconcileAll (s : State) : State :=
  let s := reconcileUnits s
  let s := seatAll s (match newestSlot s with | some (_, x) => x.deltas | none => [])
  let s := restoreSaved s
  let cause := gradeCause s
  let s := { s with brg := { s.brg with
      phase := 5, cause := cause, below := cause != 0, tilesFenced := sat8 0 (tilesOut s), halfLinks := sat8 0 (linksIn s .half),
      offLinks := sat8 0 (linksIn s .disabled) } }
  startFabricDrain s (startTables s)

/-- The ready phase (R660, R641, R662). -/
def becomeReady (s : State) : State :=
  { s with
    brg := { s.brg with phase := 6, savedOk := true, readyMs := sat16 0 ((s.clk.master - s.brg.startTick).toNat / 100000) }
    pwr := { s.pwr with state := .run, phase := .run, runMark := true, armed := true } }

/-- Phase 10 (R662): once roll call is done, and again once the tables are written. -/
def reconcile (s : State) : State :=
  if !starting s || !s.brg.rolled then s
  else if s.brg.phase = 5 then (if s.fab.drainFrom.isNone ∧ s.fab.tab0.written then becomeReady s else s)
  else reconcileAll s

/-! ## Commands -/

/-- R668: Die-to-die links train with wire repair and settle in full, half or disabled mode. -/
def execDieLinkTraining (tile : Site) (link saved : Bool) (failed : List Nat) (s : State) : Answer :=
  .next (trainLink s tile.val link saved failed)

/-- R672: HBM channels train with pin repair, fencing channels beyond repair. -/
def execHbmTraining (t : Tile) (channel saved : Bool) (pins : List Nat) (trained : Bool) (s : State) : Answer :=
  .next (trainChannel s t.val channel saved pins trained)

/-- R808: The exam runs the analogue checks and the roll-call tests at three rail points. -/
def execExam (f : ExamFindings) (s : State) : Answer := .next (runExam s f)

/-- R675: Roll call tests every unit in isolation. -/
def execRollCall (failed : List Site) (routers : List Region) (repairs : List (MNum × Bool × Fin 8 × Nat)) (s : State) : Answer :=
  .next (rollCall s failed routers repairs)

/-- R679: Fuses, field defect map and roll call are reconciled, seating built and grade decided. -/
def execReconcile (s : State) : Answer := .next (reconcile s)

end Sys2Proof.Machine
end

