-- ==== Sys2Proof/Machine/Recovery.lean ====
section
/-! DEFINITION. Recovery (R698 to R706, R741 to R779): arbitration, the step machine, substitution, the host's requests, and the
no-progress watchdog's expiry (R317, R757). -/

namespace Sys2Proof.Machine

def getRun (s : State) (p : Nat) : Option Recovery := tget none s.rcv.runs p
def setRun (s : State) (p : Nat) (r : Option Recovery) : State := { s with rcv := { s.rcv with runs := tset none s.rcv.runs p r } }

/-! ## Faults (R707, R786) -/

/-- The opcode of the slot that a fault record names (R169, R784). -/
def faultOpc (s : State) (f : FaultEv) : Nat :=
  let c := getCore s f.unit.val
  if f.rec0 = 0 then 0
  else
    match (decodeBundle c.profile (tget 0 c.istore (bits f.rec0.toNat 52 43)).toNat).find? fun o => o.slot == bits f.rec0.toNat 55 53 with
    | some o => o.opc
    | none => 0

/-- The report card entry of a fault or of another cause of a recovery (R50, R783, R787). -/
def faultEntry (s : State) (p : Nat) (r : Recovery) (discarded : Bool) (f : FaultEv) : State :=
  let u := f.unit.val
  let sub := (r.subst.find? fun e => e.1 == f.unit).map (·.2.val)
  let out := isFenced s u && (f.action == 1 || f.action == 2)
  let (level, act, dest) := if out then removal s u else (0, f.action, sub)
  postEntry s
    { kind := if f.program then 2 else if f.code = 0x33 then 3 else if f.code = 0 then r.kind.getD 0x0B else 1, code := f.code.toNat,
      level := level, stamp := f.stamp, unit := some u, subst := dest, cls := f.cls, opc := f.opc,
      pc := bits f.rec0.toNat 52 43, slot := bits f.rec0.toNat 55 53, plc := some p, syn := f.rec1, action := act,
      flags := f.flags ||| (12 * ofBool out) ||| ofBool discarded, rseq := r.seq.toNat }

/-- Whether the work in flight of a placement was discarded. -/
def workLost (s : State) (p : Nat) : Bool :=
  (getDescs s p).any fun d => match d.state with | .decided st _ => st == 1 | _ => false

/-- A recovery that cannot go on (R753): its faults are reported, and the placement stops. -/
def stopRecovery (s : State) (p cause : Nat) : State :=
  match getRun s p with
  | none => stopPlacement s p cause
  | some r =>
    let lost := workLost s p || (getDescs s p).any descLive
    let s := (r.settled ++ r.faults).foldl (fun s f => faultEntry s p r lost { f with action := 6, flags := f.flags ||| 2 }) s
    let s := match r.unit with
      | some u => if s.rcv.result = 3 ∧ siteOfId s s.rcv.reqUnit.toNat = some u.val then { s with rcv := { s.rcv with result := 1 } } else s
      | none => s
    stopPlacement s p cause

/-- Charging fault points (R707), with the action and the flags that the entry shows (R786). -/
def charge (s : State) (f : FaultEv) (n : Nat) : State × FaultEv :=
  let u := f.unit.val
  let s' := addPoints s u n none
  (s', { f with action := pointAction s s' u, flags := pointFlags s s' u })

def fenceTaken (s : State) (u : Nat) : State := { s with chk := { s.chk with toFence := s.chk.toFence.filter fun e => e.unit.val != u } }
/-- The kind of the entry that a unit's fence makes: of a unit in detention R783's MARGIN, where nothing is decided the host's. -/
def fenceKind (s : State) (u : Nat) : Option Nat :=
  match s.chk.toFence.find? fun e => e.unit.val == u with
  | some e => e.kind
  | none => some (if isDetained s u then 9 else 0x0B)


/-! ## Arbitration (R698 to R706) -/

/-- What arbitration decides for a fault (R702, R704, R705). -/
inductive Blame where
  | transient | pathPersistent | checkerPersistent | wrongData | whole | abandoned
  deriving DecidableEq, Repr

/-- The faulting operation in a vote run (R701): the same bundle and slot at the record's offset less its lag, within 1 ms of the restart
(R705); a vote run starts without lag. -/
def voteOp (a : ArbRec) (run : List VoteOp) : Option VoteOp :=
  run.find? fun o => o.pc == bits a.rec0.toNat 52 43 && o.slot == bits a.rec0.toNat 55 53 && o.offset == a.offset - a.lag
    && decide (o.at_ ≤ 100000)

/-- Whether a run is consistent (R702): its own checker passes. -/
def consistent (code : Byte) (o : VoteOp) : Bool := if code = 0x24 then compareTallies o.lanes o.chk else o.res.1 == o.res.2
/-- Whether two runs' checker values are equal. -/
def sameCheck (code : Byte) (x y : VoteOp) : Bool := if code = 0x24 then x.lanes == y.lanes && x.chk == y.chk else x.res == y.res

/-- arbitrate of R702 on a record and the vote runs, given whether there is a substitute. -/
def arbitrate (a : ArbRec) (v : VoteResult) (substitute : Bool) : Blame :=
  match voteOp a v.unit with
  | none => .whole
  | some u =>
    if consistent a.code u then .transient
    else if !substitute then .pathPersistent
    else match voteOp a v.subst with
      | none => .whole
      | some w =>
        if consistent a.code w then (if w.rows = a.orig then .checkerPersistent else .pathPersistent)
        else if w.rows = u.rows ∧ sameCheck a.code w u then .wrongData
        else .abandoned

/-- Whether a fault is one that arbitration decides (R697). -/
def arbitrable (f : FaultEv) : Bool := f.code == 0x22 || f.code == 0x24

/-- Whether vote runs are called for (R700, R705): a reproducible placement, and a record held. -/
def votes (s : State) (p : Nat) (f : FaultEv) : Bool :=
  arbitrable f && (match (getPlc s p).img with | some im => im.report.reproducible | none => false)
    && s.chk.arb.any fun a => a.unit == f.unit
/-- The arbitration record of a fault. -/
def arbOf (s : State) (f : FaultEv) : Option ArbRec :=
  (s.chk.arb.find? fun a => a.unit == f.unit && a.rec0 == f.rec0).orElse fun _ => s.chk.arb.find? fun a => a.unit == f.unit

/-- What is decided for a fault: the state, the fault with its action, whether the placement stops, and the M-core repaired. -/
structure Verdict where
  s      : State
  f      : FaultEv
  stop   : Option Nat
  repair : Option Site

def verdict (a : State × FaultEv) : Verdict := { s := a.1, f := a.2, stop := none, repair := none }

/-- A whole-unit charge (R705). -/
def wholeCharge (s : State) (f : FaultEv) : State × FaultEv :=
  charge { s with chk := { s.chk with wholeCount := sat16 s.chk.wholeCount 1 } } f 4

/-- What the locate quiz names (R194, assumption 87): the physical row, or else the column, in which every cell lies whose one-hot pattern
came out wrong. -/
def located : List (Fin 264 × Fin 260) → Option (Bool × Nat)
  | [] => none
  | x :: t =>
    if t.all fun y => y.2 == x.2 then some (true, x.2.val)
    else if t.all fun y => y.1 == x.1 then some (false, x.1.val) else none

/-- The locate quiz and the feeder-map repair (R193, R194, R703, R704): the fence where it names nothing or the group is spent. -/
def locateRepair (s : State) (f : FaultEv) (loc : Option (Bool × Nat)) : Verdict :=
  let u := f.unit.val
  let fence := { s := decideFence s u none, f := { f with action := 5 }, stop := none, repair := none : Verdict }
  match kindOf s u, loc with
  | some .mCore, some (col, i) =>
    let n := if col then 65 else 33
    let g := i / n
    if groupFree (getM s u) col g then
      { s := modM s u fun m => { setSkip m col g (i % n) with arrayBad := m.arrayBad ++ [(col, Fin.ofNat 8 g, i % n)] },
        f := { f with action := 4 }, stop := none, repair := some f.unit }
    else fence
  | _, _ => fence

/-- The outcome of arbitration is acted on (R703). -/
def actOnBlame (s : State) (p : Nat) (f : FaultEv) (a : ArbRec) (v : VoteResult) : Verdict :=
  let sub := chooseSubstitute s (some p) f.unit.val
  let blame := arbitrate a v sub.isSome
  -- a vote run that does not reach the operation is no arbitration (R705)
  let s := if blame = .whole then s else { s with chk := { s.chk with arbCount := sat16 s.chk.arbCount 1 } }
  match blame with
  | .transient => verdict (charge s f 4)
  | .pathPersistent => locateRepair s f (located v.locate)
  | .checkerPersistent => { s := decideFence s f.unit.val none, f := { f with action := 5 }, stop := none, repair := none }
  | .wrongData =>
    { s := s, f := f, stop := some (if f.code = 0x24 ∧ bits f.rec1.toNat 30 29 = 2 then 4 else 6), repair := none }
  | .whole => verdict (wholeCharge s f)
  | .abandoned =>
    let (s, f) := wholeCharge s f
    verdict ((match sub with | some w => addPoints s w 4 (some 1) | none => s), f)

/-- An HBM_UE (R453, R455): the tile is charged; at a row that is not loam a repeat stops the placement. -/
def decideHbm (s : State) (f : FaultEv) : Verdict :=
  let t := tileAt f.unit.val
  let row := f.rec1.toNat / 512
  let key := hbmAddr (t / 16) row
  let again := setHas s.rcv.ueRows key && setHas (getTile s t).damaged row && !isLoam s (t / 16) row
  let (s, f) := charge { s with rcv := { s.rcv with ueRows := setAdd s.rcv.ueRows key } } f 4
  { s := s, f := f, stop := if again then some 7 else none, repair := none }

/-- A LAPTAG (R309, R310): the same one, with the same sample, after a recovery means a wrong timetable: a program fault. -/
def decideLapTag (s : State) (p : Nat) (f : FaultEv) : Verdict :=
  let v := (f.rec1, (Config.servedSample f.unit.val f.stamp.toNat).map (·.1))
  if (getPlc s p).lapTag = some v then { s := s, f := { f with program := true }, stop := some 5, repair := none }
  else verdict (charge (modPlc s p fun x => { x with lapTag := some v }) f 4)

/-- What DECIDE does for one fault (R697, R703, R707). -/
def decideFault (s : State) (p : Nat) (vote : Option VoteResult) (f : FaultEv) : Verdict :=
  let f := if f.cls = 0 then { f with opc := faultOpc s f, cls := opcClass (faultOpc s f) } else f
  if arbitrable f then
    match (if votes s p f then arbOf s f else none), vote with
    | some a, some v =>
      actOnBlame { s with chk := { s.chk with arb := s.chk.arb.filter fun a => a.unit != f.unit } } p f a v
    | _, _ => verdict (wholeCharge { s with chk := { s.chk with arb := s.chk.arb.filter fun a => a.unit != f.unit } } f)
  else if f.code = 0x3C then decideHbm s f
  else if f.code = 0x30 then decideLapTag s p f
  else if f.code = 0x33 then verdict (s, f)
  else verdict (charge s f (if f.code = 0x38 then 2 else 4))

/-! ## Starting and joining (R750, R752) -/

/-- The raised faults that concern a placement, taken out of the list. -/
def takeFaults (s : State) (p : Nat) (u : Option Nat) : State × List FaultEv :=
  let mine := fun (f : FaultEv) => (coresOf s p).contains f.unit.val || u == some f.unit.val
  ({ s with rcv := { s.rcv with raised := s.rcv.raised.filter fun f => !mine f } }, s.rcv.raised.filter mine)

/-- A recovery starts (R750, R778): the next recovery sequence, its first step issued. -/
def beginRun (s : State) (p : Nat) (cause : BitVec 8) (faults : List FaultEv) (unit : Option Site) (planned : Bool) : State :=
  let stamp := match faults with | f :: _ => f.stamp | [] => if cause = 5 then tget 0 s.rcv.detect p else s.clk.master
  let r : Recovery := { seq := s.rcv.nextSeq, step := 1, attempt := 0, cause := cause, issued := s.clk.master, faults := faults,
                        settled := [], unit := unit, subst := [], repair := [], flipSet := false, vote := none, acked := false,
                        planned := planned, kind := unit.bind fun u => fenceKind s u.val }
  let s := { s with rcv := { s.rcv with nextSeq := s.rcv.nextSeq + 1, causes := tset 0 s.rcv.causes p cause,
                                        detect := tset 0 s.rcv.detect p stamp } }
  let s := modPlc (setRun s p (some r)) p fun x => { x with state := .recovering }
  if planned ∨ cause = 5 then s else startFaultDrain s p stamp

/-- A further fault joins a recovery (R752): back to ARBITRATE or DECIDE once STOP and DRAIN are complete, and every later step
runs again. -/
def joinRun (s : State) (p : Nat) (r : Recovery) (faults : List FaultEv) (s' : State) : State :=
  if faults = [] then s
  else if r.step ≤ 2 then
    let s := setRun s' p (some { r with faults := r.faults ++ faults, planned := false })
    startFaultDrain s p (match faults with | f :: _ => f.stamp | [] => s.clk.master)
  else
    let back := if faults.any (votes s p) then 3 else 4
    let k : BitVec 8 := if r.step.toNat < back then r.step else BitVec.ofNat 8 back
    let s := { s' with rcv := { s'.rcv with done := s'.rcv.done.filter fun e => e.1 != r.seq || decide (e.2 < k) } }
    setRun s p (some { r with faults := r.faults ++ faults, step := k, attempt := 0, issued := s.clk.master, acked := false,
                              flipSet := false })

/-- Faults that no recovery handles: a placement that unloads, naps, loads or has stopped. Each is charged and reported. -/
def chargeAlone (s : State) (p : Nat) (l : List FaultEv) : State :=
  l.foldl (fun s f =>
    let v := decideFault s p none f
    postEntry v.s { kind := 1, code := f.code.toNat, stamp := f.stamp, unit := some f.unit.val, cls := v.f.cls, opc := v.f.opc,
                    pc := bits f.rec0.toNat 52 43, slot := bits f.rec0.toNat 55 53, plc := some p, syn := f.rec1,
                    action := v.f.action, flags := v.f.flags }) s

/-- A detector fault of a unit of a placement (R750), which its detector has raised. -/
def detectorRun (s : State) (p : Nat) (code : Byte) (u : Site) : State :=
  let (s', l) := takeFaults s p (some u.val)
  if !l.any fun f => f.code == code && f.unit == u then s
  else match getRun s p with
  | some r => joinRun s p r l s'
  | none =>
    match (getPlc s p).state, (getPlc s p).drain with
    | .running, none => beginRun s' p 1 l none false
    | .running, some _ => startFaultDrain (chargeAlone s' p l) p (match l with | f :: _ => f.stamp | [] => s.clk.master)
    | _, _ => chargeAlone s' p l

/-- Whether a fenced port serves the ring of a placement (R571). -/
def ringUses (s : State) (p n : Nat) : Bool :=
  let x := getRing s p
  x.enable && (x.port.toNat == n || bit x.mask.toNat n)

/-- Whether a unit waits to be taken out of service by a planned recovery (R728, R769). -/
def outDue (s : State) (u : Nat) : Bool :=
  fencePending s u || (isDetained s u && !isPinned s u && (chooseSubstitute s (plcOf s u) u).isSome)

/-- RECOVERY starts a recovery for the placement's cause, or a fault joins the one that runs. -/
def recover (s : State) (p : Nat) (cause : RecCause) : State :=
  if !powered s || s.clk.gated then s
  else match cause with
  | .detector code u => detectorRun s p code u
  | .port n =>
    if (getRun s p).isNone ∧ (getPlc s p).state = .running ∧ (getPort s n.val).state = .fenced ∧ ringUses s p n.val then
      let (s, l) := takeFaults s p none
      beginRun s p 3 l none false
    else s
  | .planned u =>
    if (getRun s p).isNone ∧ (getPlc s p).state = .running ∧ (getPlc s p).drain = none ∧ plcOf s u.val = some p ∧ outDue s u.val then
      beginRun s p 4 [] (some u) true
    else s
  | .referenceLoss =>
    if (getRun s p).isNone ∧ (getPlc s p).state = .recovering ∧ (getPlc s p).armed = none ∧ tget 0 s.rcv.causes p = 5 then
      beginRun s p 5 [] none false
    else s

/-! ## Substitution (R287, R289, R78 to R81, R742 to R745) -/

/-- The core of a unit moves to its substitute: what the loader bound follows, and the unit keeps nothing but its hall passes, paused, to
which writes come until the flip (R274, R275). -/
def moveCore (s : State) (u v : Nat) : State :=
  let c := getCore s u
  let d := getCore s v
  let s := setCore s v { c with run := .stopped, corrected := d.corrected, scrub := d.scrub, scrubAt := d.scrubAt }
  let s := setCore s u { unloadedCore c with passes := c.passes }
  modEp (modM (modM s v freshM) u freshM) u detachOps

/-- The seating delta of a unit that takes another's logical site (R744). -/
def seatDelta (s : State) (u v : Nat) : State :=
  let l := (logicalOf s u).getD u
  { s with brg := { s.brg with
      seat := s.brg.seat.filter (fun d => d.1.val != l) ++ if l = v then [] else [(toSite l, toSite v)]
      spares := s.brg.spares.filter fun w => w.val != v } }

/-- Whether a queue has room above its high-water mark (R81). -/
def markRoom (s : State) (p : Nat) (g : Seg) : Bool :=
  match (getPlc s p).img with
  | some im => decide (markOf im g.id < g.cap)
  | none => false

/-- A segment of a unit that moves from u to v: an M-core's as the image's variant has it (R83), another's rewritten (R926). -/
def seatSeg (s : State) (p u v : Nat) (g : Seg) : Seg :=
  match (if kindOf s v = some .mCore then (getPlc s p).img.bind fun im => ((liveSegs s im).find? fun x => x.id == g.id).map fun x => (im, x) else none) with
  | some (im, x) => mkSeg s p im x
  | none => moveSeg g u v

/-- Whether a substitution changes a segment: it ends at the unit, or the unit's variant has another way for it. -/
def segMoves (s : State) (p u : Nat) (g : Seg) : Bool :=
  g.plc.val == p && (touches u g || match (getPlc s p).img with
    | some im => im.units.any fun i => (getCore s u).logical == some i.logical && match i.variant with
        | some (x : Variant) => x.segs.any fun y => y.id == g.id
        | none => false
    | none => false)

/-- What a path that has left its slack costs (R81): excess hops are silt at its destination, and a shortening without room in the queue
makes the credit stall that follows silt. -/
def slackSlip (s : State) (p : Nat) (old new : Seg) : State :=
  let d := (segEnds new).2
  let s := addSlip s p (some d) (regionOf d) (max 0 new.route.extra - max 0 old.route.extra).toNat
  if new.route.extra < 0 ∧ new.route.extra < old.route.extra ∧ !markRoom s p new then modSeg s p new.id fun g => { g with tight := true } else s

/-- The program and the ports of a core that its variant changes (R83). -/
def variantProgram (s : State) (p v : Nat) : State :=
  match (getPlc s p).img.bind fun im => im.units.find? fun i => (getCore s v).logical == some i.logical with
  | none => s
  | some i => modCore s v fun c =>
      let (start, bundles) := programOf s i
      { c with istore := bundles.foldl (fun t b => tset 0 t b.1 b.2) [], startPc := start, outPorts := [], inRings := [] }

/-- SEAT for one substitution (R743 to R745): none where the schedule collides. -/
def seatMove (s : State) (p u v : Nat) : Option State :=
  if plcOf s v = some p then some s
  else
    let s1 := seatDelta s u v
    let old := s.segs.filter (segMoves s p u)
    let rest := s.segs.filter fun g => !segMoves s p u g
    let new := old.map (seatSeg s1 p u v)
    match rewrite s.sched rest old new with
    | none => none
    | some t =>
      let s2 := moveCore { s1 with sched := t, segs := rest ++ new } u v
      some (if kindOf s v = some .mCore then new.foldl bindSeg (variantProgram s2 p v)
        else (old.zip new).foldl (fun s e => slackSlip s p e.1 e.2) s2)

/-- The routing entries after a substitution (R332): the unit's ID names the substitute, whose own ID is unassigned. -/
def moveId (s : State) (u v : Nat) (t : Tables) : Tables :=
  let id := (logicalOf s v).getD (idOfSite s u)
  let r := if id = v then t.route else tput t.route v (0 : BitVec 20)
  { t with route := if id = v then tdel r id else tput r id (siteEntry v) }

/-! ## DECIDE (R703, R707 to R710, R728, R742) -/

/-- A unit of the placement that is to leave service: it is fenced or moved, and its substitute chosen. The cause of a stop. -/
def takeOut (s : State) (p : Nat) (r : Recovery) (u : Nat) : State × Recovery × Option Nat :=
  let sub := if isPinned s u then none else chooseSubstitute s (some p) u
  let take := fun (s : State) (v : Nat) => { s with brg := { s.brg with spares := s.brg.spares.filter fun w => w.val != v } }
  if fencePending s u then
    let pinned := isPinned s u
    let s := fenceTaken s u
    let mark := fun (a b : Nat) => { r with settled := r.settled.map fun f =>
      if f.unit.val = u then { f with action := a, flags := f.flags ||| b } else f }
    match sub with
    | some v => (take (fenceUnit s u) v, { mark 3 12 with subst := r.subst ++ [(toSite u, toSite v)] }, none)
    | none => (dropId (fenceUnit s u) u, mark 5 12, some (if pinned then 2 else 1))
  else
    match sub with
    | none => (s, r, none)
    | some v =>
      let s := take s v
      let s := leaveService s u
      (s, { r with subst := r.subst ++ [(toSite u, toSite v)],
                   settled := r.settled.map fun f => if f.unit.val = u then { f with action := 3, flags := f.flags ||| 8 } else f }, none)

/-- The faults of a recovery, one after another; the lowest cause where the placement stops (R911). -/
def decideFaults (s : State) (p : Nat) (r : Recovery) : List FaultEv → State × Recovery × Option Nat
  | [] => (s, { r with faults := [] }, none)
  | f :: t =>
    let v := decideFault s p r.vote f
    let r := { r with settled := r.settled ++ [v.f], repair := r.repair ++ v.repair.toList }
    let (s, r, c) := decideFaults v.s p r t
    (s, r, match v.stop, c with | some a, some b => some (min a b) | some a, none => some a | none, c => c)

/-- When the fault of a unit was detected (R31): its fault's stamp, or the time at which its fence or detention was decided. -/
def detectedAt (s : State) (l : List FaultEv) (u : Nat) : Nat :=
  match l.find? fun f => f.unit.val == u with
  | some f => f.stamp.toNat
  | none => match s.chk.toFence.find? fun e => e.unit.val == u with
    | some e => e.at_.toNat
    | none => match s.chk.detained.find? fun d => d.unit.val == u with
      | some d => d.since.toNat
      | none => s.clk.master.toNat
/-- The order in which units compete for a spare (R31): earlier detection, then lower X, then lower Y. -/
def spareKey (s : State) (l : List FaultEv) (u : Nat) : Nat := detectedAt s l u * 16384 + siteX u * 80 + siteY u
/-- A unit put into its place in a list by a key. -/
def placeBy (key : Nat → Nat) (u : Nat) : List Nat → List Nat
  | [] => [u]
  | v :: t => if key u < key v then u :: v :: t else v :: placeBy key u t

/-- The units of a placement that leave service in this recovery, in the order of R31. -/
def leavers (s : State) (p : Nat) (r : Recovery) : List Nat :=
  ((coresOf s p).filter fun u => !isFenced s u
    && (fencePending s u || (s.chk.detained.any fun d => d.unit.val == u && !d.out) || (r.unit.map (·.val) == some u && r.subst.isEmpty))).foldr
      (placeBy (spareKey s r.settled)) []

/-- Whether another recovery still to decide has an earlier claim on a spare that both want (R31): more units of its kind and region fail
than there are spares. -/
def rivalFirst (s : State) (p : Nat) (r : Recovery) : Bool :=
  let l := s.rcv.runs.flatMap fun e => match e.2 with
    | some q => if q.step.toNat ≤ 4 ∧ !(q.step == 4 && q.acked) then q.faults.map fun f => (e.1, f) else []
    | none => []
  let sameKind := fun (x y : Site) => isCoreKind (kindOf s x.val) && kindOf s x.val == kindOf s y.val && regionOf x.val == regionOf y.val
  r.faults.any fun f => l.any fun e => e.1 != p && sameKind e.2.unit f.unit
    && decide (spareKey s [e.2] e.2.unit.val < spareKey s [f] f.unit.val)
    && decide ((ledger s (kindCode (kindOf s f.unit.val)) (regionOf f.unit.val)).length < (l.filter fun x => sameKind x.2.unit f.unit).length)

def takeOuts (s : State) (p : Nat) (r : Recovery) : List Nat → State × Recovery × Option Nat
  | [] => (s, r, none)
  | u :: t =>
    let (s, r, c) := takeOut s p r u
    let (s, r, d) := takeOuts s p r t
    (s, r, match c, d with | some a, some b => some (min a b) | some a, none => some a | none, d => d)

/-! ## The work of each step (R748) -/

/-- How the work of a step ends: done, still to be done, or impossible, with the cause of the stop. -/
inductive StepEnd where
  | done (s : State) (r : Recovery)
  | wait (s : State) (r : Recovery)
  | stop (s : State) (r : Recovery) (cause : Nat)

/-- SEAT and FLIP run one at a time, in the order of detection stamps (R31, R755). -/
def turnOf (s : State) (p : Nat) : Bool :=
  let t := (tget 0 s.rcv.detect p).toNat
  s.rcv.runs.all fun e => match e.2 with
    | none => true
    | some q => e.1 == p || !(q.step == 5 || q.step == 7) ||
        decide (t < (tget 0 s.rcv.detect e.1).toNat ∨ (t = (tget 0 s.rcv.detect e.1).toNat ∧ p < e.1))

/-- The ring of a placement whose port was fenced (R571). -/
def moveRing (s : State) (p : Nat) : State :=
  let x := getRing s p
  let mask := x.mask &&& upMask s
  match (lowestPort fun n => bit mask.toNat n).orElse fun _ => lowestPort (isUp s) with
  | some n =>
    let keep := isUp s x.port.toNat
    aliasPort (setRing s p { x with mask := mask, port := if keep then x.port else BitVec.ofNat 5 n }) p
  | none => s

/-- SEAT for every substitution of a recovery. -/
def seatMoves (s : State) (p : Nat) : List (Site × Site) → Option State
  | [] => some s
  | e :: t => match seatMove s p e.1.val e.2.val with
    | some s => seatMoves s p t
    | none => none

/-- Damaged loam rows among the faults are rewritten from their other copy (R455). -/
def mendLoam (s : State) (im : Image) (t row : Nat) : State :=
  let hit := fun (stack off : Nat) (mask : BitVec 16) (b : LoamEntry) =>
    if stack = t / 16 then (upFrom 0 b.rows).find? fun k => loamRow s off mask k == row else none
  im.loam.foldl (fun s b =>
    let k := match hit b.stackA.val b.offA b.maskA b with | some k => some (false, k) | none => (hit b.stackB.val b.offB b.maskB b).map (true, ·)
    match k with
    | none => s
    | some (inB, k) =>
      let a := if inB then loamRow s b.offA b.maskA k else loamRow s b.offB b.maskB k
      let (s, rd) := tileRead s (rowTile (if inB then b.stackA.val else b.stackB.val) a) a 0
      if rd.pois = 0 then tileWrite s t row rd.data false else s) s

def mendRows (s : State) (p : Nat) (r : Recovery) : State :=
  match (getPlc s p).img with
  | none => s
  | some im => (r.settled.filter fun f => f.code == 0x3C).foldl (fun s f => mendLoam s im (tileAt f.unit.val) (f.rec1.toNat / 512)) s

/-- RESUME (R748, R762): start bundles armed for the next T tick; excess hops enter the lags of their destinations (R81). -/
def resume (s : State) (p : Nat) (r : Recovery) : State :=
  let s := (s.segs.filter fun g => g.plc.val == p && decide (0 < g.route.extra)).foldl (fun s g =>
    modCore s (segEnds g).2 fun c => { c with lag := max c.lag g.route.extra.toNat }) s
  let us := ((s.clk.master - tget 0 s.rcv.detect p).toNat) / 100
  let s := { s with rcv := { s.rcv with interr := tset 0 s.rcv.interr p (sat32 0 us) } }
  modPlc s p fun x => { x with armed := some s.clk.master, resumedAt := if r.cause = 2 then some s.clk.master else x.resumedAt }

/-- The work of the step that a recovery has issued. -/
def stepWork (s : State) (p : Nat) (r : Recovery) (v : VoteResult) : StepEnd :=
  match r.step.toNat with
  | 1 => .done (if r.planned ∧ (getPlc s p).drain = none then startContextDrain s p false else s) r
  | 2 => if (getPlc s p).drain.isSome then .wait s r else .done s r
  | 3 => .done s { r with vote := if r.faults.any (votes s p) then some v else none }
  | 4 =>
    if rivalFirst s p r then .wait s r
    else
      let (s, r, c) := decideFaults s p r r.faults
      match c with
      | some c => .stop s r c
      | none =>
        let (s, r, d) := takeOuts s p r (leavers s p r)
        match d with
        | some d => .stop s r d
        | none => .done s r
  | 5 =>
    if !turnOf s p then .wait s r
    else
      let s := if r.cause = 3 then moveRing s p else s
      match seatMoves s p r.subst with
      | some s => .done s r
      | none => .stop s r 8
  | 6 =>
    let s := mendRows s p r
    let whole := fun (u : Nat) => r.cause == 5 || (r.subst.any fun e => e.2.val == u) || r.repair.any fun v => v.val == u
    match restorePlacement s p whole with
    | (s, true) => .done s r
    | (s, false) => .stop s r 8
  | 7 =>
    if r.subst.isEmpty then .done s r
    else if r.flipSet then
      if s.fab.pending ∨ s.fab.want.isSome ∨ s.fab.drainFrom.isSome then .wait s r
      else .done (r.subst.foldl (fun s e => modCore s e.1.val fun c => { c with passes := [] }) s) r
    else if !turnOf s p then .wait s r
    else .wait (requestFlip s fun t => r.subst.foldl (fun t e => moveId s e.1.val e.2.val t) t) { r with flipSet := true }
  | 8 =>
    if r.cause = 5 ∧ ((upFrom 0 32).any fun n => (getPort s n).state == .training && (getPort s n).trained) then .wait s r
    else .done (resume s p r) r
  | _ =>
    let lost := workLost s p
    let s := flushDescs s p (getDescs s p).length
    let s := r.settled.foldl (fun s f => faultEntry s p r lost f) s
    let s := match r.unit with
      | some u =>
        let act := if r.subst.any fun e => e.1 == u then 3 else 5
        let s := faultEntry s p r lost { code := 0, unit := u, stamp := tget 0 s.rcv.detect p, rec0 := 0, rec1 := 0, action := act, flags := 8 }
        if s.rcv.result = 3 then { s with rcv := { s.rcv with result := 1 } } else s
      | none => s
    .done { s with rcv := { s.rcv with count := tmod 0 s.rcv.count p (sat32 · 1) } } r

/-- The steps recorded as done, for the last 16 recovery sequences (R751). -/
def recordDone (s : State) (r : Recovery) : State :=
  { s with rcv := { s.rcv with done := (s.rcv.done.filter fun e => decide ((r.seq - e.1).toNat < 16)) ++ [(r.seq, r.step)] } }

/-- A router write that fails during FLIP (R754): a drain-first rewrite makes the changes, and every placement drains for it. -/
def flipFails (s : State) (p : Nat) (r : Recovery) : State :=
  let s := startFabricDrain s fun t => r.subst.foldl (fun t e => moveId s e.1.val e.2.val t) t
  let s := setRun s p (some { r with flipSet := true })
  s.plcs.foldl (fun s e => if e.2.state = .running ∧ e.2.drain = none ∧ (getRun s e.1).isNone then beginRun s e.1 4 [] none true else s) s

/-- An executor takes the step that is issued (R751): once, whatever the attempt; a failing executor leaves it to the timeout. -/
def executeStep (s : State) (p : Nat) (v : VoteResult) : State :=
  match getRun s p with
  | none => s
  | some r =>
    if s.clk.gated ∨ r.acked then s
    else if s.rcv.done.contains (r.seq, r.step) then setRun s p (some { r with acked := true })
    else if !v.ok then (if r.step = 7 ∧ !r.subst.isEmpty ∧ !r.flipSet then flipFails s p r else s)
    else match stepWork s p r v with
      | .done s r => recordDone (setRun s p (some { r with acked := true })) r
      | .wait s r => setRun s p (some r)
      | .stop s r c => stopRecovery (setRun s p (some r)) p c

/-- The identifier of a step (R747). -/
def stepId (r : Recovery) : BitVec 32 := r.seq ++ r.step ++ r.attempt

/-- A step's acknowledgement (R750): the next step is issued, or the recovery ends. -/
def ackStep (s : State) (p : Nat) : State :=
  match getRun s p with
  | none => s
  | some r =>
    if !r.acked then s
    else
      let s := { s with rcv := { s.rcv with lastAck := tset 0 s.rcv.lastAck p (stepId r) } }
      if r.step = 9 then setRun s p none
      else setRun s p (some { r with step := r.step + 1, attempt := 0, issued := s.clk.master, acked := false })

/-- Whether a step's own work still runs within its limit of R748, so that no acknowledgement is due. -/
def stepBusy (s : State) (p : Nat) (r : Recovery) : Bool :=
  (r.step == 2 && (getPlc s p).drain.isSome)
    || (r.step == 4 && rivalFirst s p r)
    || ((r.step == 5 || r.step == 7) && !turnOf s p)
    || (r.step == 7 && r.flipSet && (s.fab.pending || s.fab.want.isSome || s.fab.drainFrom.isSome))
    || (r.step == 8 && r.cause == 5 && (upFrom 0 32).any fun n => (getPort s n).state == .training && (getPort s n).trained)

/-- 20 µs, 2,000 T ticks, without an acknowledgement (R750): a new attempt, the third being the last (R753). -/
def timeoutStep (s : State) (p : Nat) : State :=
  match getRun s p with
  | none => s
  | some r =>
    if (s.clk.master - r.issued).toNat < 2000 ∨ stepBusy s p r ∨ s.clk.gated then s
    else if r.attempt.toNat < 2 then
      setRun s p (some { r with attempt := r.attempt + 1, issued := s.clk.master, acked := false })
    else stopRecovery s p 8

/-! ## Units outside a placement in service (R719, R728, R756) -/

/-- A unit with no recovery of its own to go through: a fence takes effect at once, and a seated core's site passes to a
substitute (R756); a pinned unit or one without a substitute stops a placement that still holds it. -/
def fenceAlone (s : State) (u : Nat) : State :=
  let s0 := s
  let s := fenceTaken s u
  let s := if isPinned s u then stopWhere s 2 fun p x => plcOf s u == some p && x.state != .stopped else s
  let seated := isCoreKind (kindOf s u) && (logicalOf s u).isSome
  let sub := if seated ∧ plcOf s u = none then chooseSubstitute s none u else none
  let s := fenceUnit s u
  let s := match sub with
    | some v =>
      let s := seatDelta s u v
      requestFlip s (moveId s u v)
    | none => if isCoreKind (kindOf s u) then dropId s u else s
  match s0.chk.toFence.find? fun e => e.unit.val == u with
  | some ⟨_, t, some k⟩ =>
    let (level, act, dest) := match sub with | some v => (0, 3, some v) | none => removal s u
    postEntry s { kind := k, level := level, stamp := t, unit := some u, subst := dest, action := act,
                  flags := 12 + 2 * ofBool (s0.plcs.any fun e => e.2.state != .stopped && (getPlc s e.1).state == .stopped) }
  | _ => s

/-- A fence that has been decided: through a planned recovery where the unit serves a running placement, else at once. A
placement that drains, loads, naps or recovers keeps it waiting. -/
def settleFence (s : State) (u : Nat) : State :=
  if isFenced s u then fenceTaken s u
  else match (if isCoreKind (kindOf s u) then plcOf s u else none) with
    | none => fenceAlone s u
    | some p =>
      match (getPlc s p).state with
      | .running => if (getPlc s p).drain = none ∧ (getRun s p).isNone then beginRun s p 4 [] (some (toSite u)) true else s
      | .stopped => fenceAlone s u
      | .absent => fenceAlone s u
      | _ => s

/-- A detained core that a spare covers leaves service (R728, R756). -/
def settleDetained (s : State) (u : Nat) : State :=
  if !isCoreKind (kindOf s u) || !outDue s u || fencePending s u then s
  else match plcOf s u with
    | some p =>
      if (getPlc s p).state = .running ∧ (getPlc s p).drain = none ∧ (getRun s p).isNone then beginRun s p 4 [] (some (toSite u)) true else s
    | none =>
      match (if (logicalOf s u).isSome then chooseSubstitute s none u else none) with
      | some v =>
        let s := leaveService (seatDelta s u v) u
        requestFlip s (moveId s u v)
      | none => s

/-- What the proctor does with the fences decided and the units in detention. -/
def settle (s : State) : State :=
  if s.brg.phase ≠ 6 ∨ s.clk.gated ∨ s.pwr.phase ≠ .run then s
  else
    let s := ((s.chk.toFence.map (·.unit.val)).foldr (placeBy (spareKey s [])) []).foldl settleFence s
    ((s.chk.detained.filter fun d => !d.out).map fun d => d.unit.val).foldl settleDetained s

/-! ## The host's requests (R769 to R771) -/

/-- A request refused (R769). -/
def refuseReq (s : State) (code : BitVec 6) : State := { s with rcv := { s.rcv with result := 2, refusal := code } }

/-- A request taken (R769, R770): a repeated one is done without effect. -/
def takeReq (s : State) (act : BitVec 3) (v : Word) (id : BitVec 32) (go : State → Nat → State) : State :=
  if s.brg.phase ≠ 6 ∨ s.clk.gated ∨ bits v.toNat 63 63 = 0 ∨ bits v.toNat 62 60 ≠ act.toNat ∨ bits v.toNat 45 0 ≠ 0 then s
  else
    let unit := BitVec.ofNat 14 (bits v.toNat 59 46)
    let s := { s with rcv := { s.rcv with reqAct := act, reqUnit := unit, reqId := id } }
    if id = s.rcv.lastId ∧ s.rcv.result = 1 then s
    else
      let s := { s with rcv := { s.rcv with lastId := id, result := 0, refusal := 0 } }
      match siteOfId s unit.toNat with
      | none => refuseReq s 1
      | some u => if (kindOf s u).isNone then refuseReq s 1 else go s u

/-- Whether a recovery runs in a unit's placement. -/
def unitBusy (s : State) (u : Nat) : Bool :=
  match plcOf s u with
  | some p => (getRun s p).isSome || (getPlc s p).state == .recovering
  | none => false

/-- A fence request (R770, R771). -/
def fenceReq (s : State) (u : Nat) : State :=
  if isFenced s u then { s with rcv := { s.rcv with result := 1 } }
  else if unitBusy s u then refuseReq s 5
  else
    let s := settleFence (decideFence s u (some 0x0B)) u
    { s with rcv := { s.rcv with result := if isFenced s u then 1 else 3 } }

/-- A reseat request (R771); a unit without a logical site has none to move. -/
def reseatReq (s : State) (u : Nat) : State :=
  if !isCoreKind (kindOf s u) then refuseReq s 4
  else if unitBusy s u then refuseReq s 5
  else if isPinned s u then refuseReq s 2
  else if (logicalOf s u).isNone then { s with rcv := { s.rcv with result := 1 } }
  else match chooseSubstitute s (plcOf s u) u with
    | none => refuseReq s 3
    | some v =>
      match plcOf s u with
      | some p =>
        if (getPlc s p).state = .running ∧ (getPlc s p).drain = none then
          beginRun { s with rcv := { s.rcv with result := 3 } } p 4 [] (some (toSite u)) true
        else refuseReq s 5
      | none =>
        let s := leaveService (seatDelta s u v) u
        let s := { s with rcv := { s.rcv with result := 1 } }
        requestFlip s (moveId s u v)

/-! ## No progress (R317, R757) -/

/-- The watchdog of a placement expires. -/
def noProgress (s : State) (p : Nat) : State :=
  let x := getPlc s p
  if x.watchdog < 65536 ∨ s.clk.gated then s
  else
    let u := noProgressSite s p
    let f : FaultEv := { code := 0x33, unit := toSite u, stamp := BitVec.ofNat 64 (timeAt s u), rec0 := 0, rec1 := 0, action := 0 }
    match x.drain with
    | some d =>
      let s := match getRun s p with
        | some r => setRun s p (some { r with settled := r.settled ++ [f], planned := false })
        | none => postEntry s { kind := 3, code := 0x33, stamp := f.stamp, unit := some u, plc := some p, action := 0, flags := 1 }
      afterDrain (startFaultDrain s p f.stamp) p { d with fault := true }
    | none =>
      if x.state ≠ .running then s
      else
        let again := match x.resumedAt with | some t => decide ((s.clk.master - t).toNat < 1000000) | none => false
        if again then
          postEntry (stopPlacement s p 5)
            { kind := 3, code := 0x33, stamp := f.stamp, unit := some u, plc := some p, action := 6, flags := 3 }
        else
          let s := beginRun s p 2 [] none false
          match getRun s p with
          | some r => setRun s p (some { r with settled := [f] })
          | none => s

/-! ## Commands -/

/-- R317: The placement's no-progress watchdog expires and a fault drain starts without charging a unit. -/
def execNoProgress (p : Plc) (s : State) : Answer := .next (noProgress s p.val)

/-- R750: A detector fault or other cause starts the recovery step machine for a placement. -/
def execRecovery (p : Plc) (cause : RecCause) (s : State) : Answer := .next (recover s p.val cause)

/-- R750: A step's acknowledgement arrives and the machine issues the next step. -/
def execRecoveryStepAck (p : Plc) (s : State) : Answer := .next (ackStep s p.val)

/-- R750: 20 µs pass without acknowledgement and the step is reissued or the placement stopped. -/
def execRecoveryStepTimeout (p : Plc) (s : State) : Answer := .next (timeoutStep s p.val)

/-- R751: An executor performs a recovery step once, answering repeats without effect. -/
def execStepExecute (p : Plc) (vote : VoteResult) (s : State) : Answer := .next (executeStep s p.val vote)

end Sys2Proof.Machine
end

