-- ==== Sys2Proof/Machine/Checking.lean ====
section
/-! DEFINITION. Checking (R695 to R732): detector enables, host nomination, the power limiter, fault-point buckets, micro-quizzes
and detention. -/

namespace Sys2Proof.Machine

/-! ## CHK_CTRL, CHK_SUSPECT, CHK_MARGIN, PWR_CAP (R695, R709, R714, R718) -/

/-- A write of CHK_CTRL word 0 (R695, R696): clearing an enable sets bound void until the next start. -/
def writeCtrl (s : State) (v : Nat) : State :=
  let e := BitVec.ofNat 6 (bits v 6 1)
  if e = 0x3F then { s with chk := { s.chk with enables := e } }
  else raiseCause { s with chk := { s.chk with enables := e, void := true } } 6

/-- A nomination (R709): 4 points to the unit, or the refusal of an ID that is unassigned or names no unit. -/
def nominate (s : State) (v : Nat) : State :=
  if bit v 63 then
    let id := bits v 61 48
    let s := { s with chk := { s.chk with suspId := BitVec.ofNat 14 id } }
    match siteOfId s id with
    | some u =>
      if (kindOf s u).isSome ∧ !isFenced s u then
        settle (pointsWithEntry { s with chk := { s.chk with suspRes := 1 } } u 0x0B)
      else { s with chk := { s.chk with suspRes := 2 } }
    | none => { s with chk := { s.chk with suspRes := 2 } }
  else { s with chk := { s.chk with suspId := BitVec.ofNat 14 (bits v 61 48) } }

/-- A write of PWR_CAP word 0 (R718): a raise is refused, and so is a cap outside its range. -/
def writeCap (s : State) (v : Nat) : Option State :=
  let c := bits v 15 0
  if s.chk.cap.toNat < c ∨ c < 3000 then none else some { s with chk := { s.chk with cap := BitVec.ofNat 16 c } }

/-- A write of CHK_MARGIN (R714). -/
def writeMargin (s : State) (v : Nat) : Option State :=
  if 8 < bits v 7 4 ∨ 2 < bits v 3 2 then none
  else some { s with chk := { s.chk with maxTrim := BitVec.ofNat 4 (bits v 7 4), maxClock := BitVec.ofNat 2 (bits v 3 2) } }

/-! ## The power limiter (R44, R715 to R717) -/

/-- The input ceiling that R44 gives at an input voltage. -/
def inputCeiling (mv : Nat) : Nat := min 5400 (110 * mv / 1000)

/-- One more region is lowered by one step (R716): the hottest of those below step 2. -/
def lowerOne (s : State) (hottest : List Region) : State :=
  match (hottest ++ (List.finRange 32)).find? fun r => decide (tget 0 s.chk.limitClk r.val < 2) with
  | some r => { s with chk := { s.chk with limitClk := tmod 0 s.chk.limitClk r.val (· + 1), limitOrder := r :: s.chk.limitOrder,
                                           lastLower := s.clk.master } }
  | none =>
    if s.chk.inputHold then s
    else postEntry { s with chk := { s.chk with inputHold := true } } { kind := 0x0A, stamp := s.clk.master, action := 0 }

/-- The last step taken is released (R716). -/
def releaseOne (s : State) : State :=
  match s.chk.limitOrder with
  | r :: t => { s with chk := { s.chk with limitClk := tmod 0 s.chk.limitClk r.val (· - 1), limitOrder := t, lastFree := s.clk.master } }
  | [] => s

/-- A sample of the limiter (R716): 20 µs are 2,000 T ticks and 1 ms is 100,000. -/
def limiter (s : State) (avg100 avg1000 mv : Nat) (hottest : List Region) : State :=
  if !powered s then s
  else
    let s := { s with chk := { s.chk with inPower := sat16 0 avg1000, ceiling := sat16 0 (inputCeiling mv) } }
    let cap := effCap s
    if 98 * cap < 100 * avg100 then
      let s := { s with chk := { s.chk with lastFree := s.clk.master } }
      if s.chk.limitOrder.isEmpty ∨ 2000 ≤ (s.clk.master - s.chk.lastLower).toNat then lowerOne s hottest else s
    else if 100 * avg100 < 95 * cap then
      let s := { s with chk := { s.chk with inputHold := false } }
      if 100000 ≤ (s.clk.master - s.chk.lastFree).toNat then releaseOne s else s
    else { s with chk := { s.chk with lastFree := s.clk.master } }

/-! ## Points and quizzes (R708, R720 to R731) -/

/-- At each whole hour of module time, 360,000,000,000 T ticks, the oldest bucket of every unit is dropped (R708). -/
def dropBuckets (s : State) : State :=
  let h := nowT s / 360000000000
  if h ≤ s.chk.hour then s
  else
    let n := h - s.chk.hour
    { s with chk := { s.chk with
        hour := h
        points := tmap [] (fun _ l => let l' := ((List.replicate (min n 24) 0) ++ l).take 24
                                      if l'.all (· == 0) then [] else l') s.chk.points } }

/-- Whether micro-quizzes run (R695, R820): in service, enabled, and not in the RETIRED state. -/
def quizzesRun (s : State) : Bool :=
  s.brg.phase == 6 && s.pwr.state == .run && !s.clk.gated && bit s.chk.enables.toNat 5 && s.fuses.life != 4
/-- The units that the rotation quizzes: every enabled unit and every spare (R720). -/
def quizzable (s : State) (u : Nat) : Bool := quizzesRun s && (kindOf s u).isSome && !isFenced s u

/-- The segments of a unit's micro-quiz (R721); a unit that is no core has one (assumption 89). -/
def segmentCount : Option UnitKind → Nat
  | some .sCore => 40
  | some .vCore => 120
  | some .mCore => 600
  | _ => 1

/-- Whether a segment may start in a unit now, `offset` K-cycles into the T tick (R57, R58, R721): at any time where no placement uses the
unit; else where 80 K-cycles of a free period of the unit are left, an M-core's on a multiple of 4. -/
def segmentMay (s : State) (u offset : Nat) : Bool :=
  match (if isCoreKind (kindOf s u) then plcOf s u else none) with
  | none => true
  | some p =>
    let x := getPlc s p
    let c := getCore s u
    match x.img, logicalOf s u with
    | some im, some l =>
      let k := (kPast c (timeAt s u) + offset - c.lag) % max 1 im.report.cadence
      x.state == .running && x.drain.isNone && (c.profile != .m || offset % 4 == 0)
        && im.units.any fun i => i.logical == l && i.free.any fun e => decide (e.1 ≤ k ∧ k + 80 ≤ e.1 + e.2)
    | _, _ => false

/-- The seed of a rotation's seeded parts (R723): the module ID's bits 31:0 XOR the rotation number. -/
def quizSeed (s : State) : BitVec 32 := s.fuses.moduleId.setWidth 32 ^^^ BitVec.ofNat 32 s.chk.rotation

/-- The rotation's number follows the 6-hour window of module time (R720), 2,160,000,000,000 T ticks. -/
def rotate (s : State) : State :=
  let w := nowT s / 2160000000000
  if w = s.chk.rotation then s else { s with chk := { s.chk with rotation := w, quizzed := [], seeded := [] } }

/-- The units that two others of their kind outvote (R723): theirs is a result that nobody shares, while two others agree on another. -/
def outvoted (s : State) (kind : Option UnitKind) : List Site :=
  let l := s.chk.seeded.filter fun e => kindOf s e.1.val == kind && e.2.1 == quizSeed s
  let votes := fun (w : Word) => (l.filter fun e => e.2.2 == w).length
  if l.any fun e => decide (2 ≤ votes e.2.2) then (l.filter fun e => votes e.2.2 == 1).map (·.1) else []

/-- The end of a unit's quiz: its seeded result stands beside those of its peers, and the verdict is that of both parts (R720, R723). -/
def endQuiz (s : State) (u : Nat) (bad : Bool) (w : Word) : State × Bool :=
  let me := toSite u
  let s := { s with chk := { s.chk with
    quizzes := tdel s.chk.quizzes u
    quizzed := if s.chk.quizzed.contains me then s.chk.quizzed else s.chk.quizzed ++ [me]
    seeded := (s.chk.seeded.filter fun e => e.1 != me) ++ [(me, quizSeed s, w)] } }
  let out := outvoted s (kindOf s u)
  let s := { s with chk := { s.chk with seeded := s.chk.seeded.filter fun e => !out.contains e.1 } }
  ((out.filter (· != me)).foldl (fun s v => pointsWithEntry s v.val 1) s, !bad && !out.contains me)

/-- A segment of a unit's micro-quiz runs, and ends the quiz with its last (R721): `fixed` are the answers of the fixed part's tests in it,
which the firmware stores, and `seeded` is the result of the seeded part. -/
def runSegment (s : State) (u : Nat) (fixed seeded : Word) : State × Option Bool :=
  let s := rotate s
  let q := tget { done := 0, bad := false } s.chk.quizzes u
  let bad := q.bad || fixed != Config.quizAnswer (kindCode (kindOf s u)) q.done
  if q.done + 1 < segmentCount (kindOf s u) then
    ({ s with chk := { s.chk with quizzes := tput s.chk.quizzes u { done := q.done + 1, bad := bad } } }, none)
  else
    let (s, ok) := endQuiz s u bad seeded
    (s, some ok)

/-- A segment of a unit's quiz in the rotation (R720, R707): a failure is 4 points; a unit that a reseat moved becomes a spare once it
passes (R771). -/
def microQuiz (s : State) (u offset : Nat) (fixed seeded : Word) : State :=
  if !quizzable s u || isDetained s u || !segmentMay s u offset then s
  else
    match runSegment s u fixed seeded with
    | (s, none) => s
    | (s, some true) =>
      settle (if s.brg.waiting.any fun v => v.val == u then
        { s with brg := { s.brg with waiting := s.brg.waiting.filter (fun v => v.val != u), spares := s.brg.spares ++ [toSite u] } }
      else s)
    | (s, some false) => settle (pointsWithEntry s u 1)

/-- A unit leaves detention (R730): its points are cleared, its trim stays, and one out of service joins the spares. -/
def leaveDetention (s : State) (u : Nat) (out : Bool) : State :=
  let s := { s with
    chk := { s.chk with detained := s.chk.detained.filter (fun d => d.unit.val != u), points := tset [] s.chk.points u [] }
    brg := { s.brg with spares := if out then s.brg.spares ++ [toSite u] else s.brg.spares } }
  postEntry s { kind := 0x09, stamp := s.clk.master, unit := some u, action := 7 }

/-- The outcome of a quiz of a detained unit (R730, R731). -/
def detentionOutcome (s : State) (u : Nat) (passed : Bool) : State :=
  match s.chk.detained.find? fun d => d.unit.val == u with
  | none => s
  | some d =>
    if passed then
      if 63 ≤ d.clean then leaveDetention s u d.out else modDetained s u fun d => { d with clean := d.clean + 1 }
    else
      let s' := detentionFailure s u
      if fencePending s' u then s'
      else postEntry s' { kind := 0x09, stamp := s.clk.master, unit := some u, action := pointAction s s' u, flags := pointFlags s s' u }

/-- A segment of a quiz of a detained unit (R729 to R731); a quiz starts every 30 s, 3,000,000,000 T ticks. -/
def detentionQuiz (s : State) (u offset : Nat) (fixed seeded : Word) : State :=
  match s.chk.detained.find? fun d => d.unit.val == u with
  | none => s
  | some d =>
    let first := (tfind s.chk.quizzes u).isNone
    if !quizzesRun s || !segmentMay s u offset || (first && decide ((s.clk.master - d.lastQuiz).toNat < 3000000000)) then s
    else
      let s := if first then modDetained s u fun d => { d with lastQuiz := s.clk.master } else s
      match runSegment s u fixed seeded with
      | (s, none) => s
      | (s, some passed) => settle (detentionOutcome s u passed)

/-! ## Commands -/

/-- R716: Every 10 µs the power limiter samples input power and lowers or releases region clock steps. -/
def execLimiterSample (avg100 avg1000 milliVolts : Nat) (hottest : List Region) (s : State) : Answer :=
  .next (limiter s avg100 avg1000 milliVolts hottest)

/-- R708: At each whole hour the oldest fault-point bucket is dropped. -/
def execPointBucketDrop (s : State) : Answer := .next (dropBuckets s)

/-- R720: A micro-quiz of a unit falls due in the 6-hour rotation and runs in segments. -/
def execMicroQuiz (u : Site) (r : QuizRun) (s : State) : Answer := .next (microQuiz s u.val r.offset.val r.fixed r.seeded)

/-- R729: Every 30 s a detained unit is quizzed, leaving detention after 64 clean quizzes. -/
def execDetentionQuiz (u : Site) (r : QuizRun) (s : State) : Answer := .next (detentionQuiz s u.val r.offset.val r.fixed r.seeded)

end Sys2Proof.Machine
end

