-- ==== Sys2Proof/Machine/Control.lean ====
section
/-! DEFINITION. The commands of control slots (R119 to R136, R405 to R412), the release of held bundles and PROGRAM_FAULT. -/

namespace Sys2Proof.Machine

/-- R121: Control slot transfers control to the target, costing the mispredict delay when its hint is 0. -/
def execJmp (a : Issue) (w : BitVec 56) (s : State) : Answer :=
  .next (stage s a 0x80 w.toNat)

/-- R121: Control slot branches if the condition register is zero, following its hint for timing. -/
def execBeqz (a : Issue) (w : BitVec 56) (s : State) : Answer :=
  .next (stage s a 0x81 w.toNat)

/-- R121: Control slot branches if the condition register is non-zero. -/
def execBnez (a : Issue) (w : BitVec 56) (s : State) : Answer :=
  .next (stage s a 0x82 w.toNat)

/-- R121: Control slot branches if the condition register is negative. -/
def execBltz (a : Issue) (w : BitVec 56) (s : State) : Answer :=
  .next (stage s a 0x83 w.toNat)

/-- R121: Control slot branches if the condition register is not negative. -/
def execBgez (a : Issue) (w : BitVec 56) (s : State) : Answer :=
  .next (stage s a 0x84 w.toNat)

/-- R119: Control slot writes the link register with bundle address + 1 and transfers control. -/
def execJal (a : Issue) (w : BitVec 56) (s : State) : Answer :=
  .next (stage s a 0x85 w.toNat)

/-- R122: Control slot jumps to the address held in a register, always at the mispredict delay. -/
def execJr (a : Issue) (w : BitVec 56) (s : State) : Answer :=
  .next (stage s a 0x86 w.toNat)

/-- R123: Control slot holds its bundle until an arrival counter reaches the target, and releases input ring rows. -/
def execWaitc (a : Issue) (w : BitVec 56) (s : State) : Answer :=
  .next (stage s a 0x88 w.toNat)

/-- R124: Control slot holds its bundle until a masked status word meets its compare condition. -/
def execWaits (a : Issue) (w : BitVec 56) (s : State) : Answer :=
  .next (stage s a 0x89 w.toNat)

/-- R125: A waiting bundle issues in the first cycle in which its counter or status condition holds. -/
def execWaitConditionMet (u : Site) (cycle : Nat) (s : State) : Answer :=
  .next (clocked s (release s u.val cycle true))

/-- R107: A bundle held by the scoreboard, stream credits or a full matrix queue issues once the cause clears. -/
def execStallRelease (u : Site) (cycle : Nat) (s : State) : Answer :=
  .next (clocked s (release s u.val cycle false))

/-- R130: Control slot sends rows to another endpoint as WRITE or GATHER packets. -/
def execSend (a : Issue) (w : BitVec 56) (s : State) : Answer :=
  .next (stage s a 0x8A w.toNat)

/-- R407: MSG send checks the channel word, takes a sequence and enters the outbound engine. -/
def execMsgSend (a : Issue) (w : BitVec 56) (s : State) : Answer :=
  .next (stageMsg s a w.toNat (fun o => o == 0 || 4 ≤ o))

/-- R425: MSG release advances a receive channel's read offset and lowers its rows in use. -/
def execMsgRelease (a : Issue) (w : BitVec 56) (s : State) : Answer :=
  .next (stageMsg s a w.toNat ((· == 1)))

/-- R430: MSG close puts a receive channel in the closed state. -/
def execMsgClose (a : Issue) (w : BitVec 56) (s : State) : Answer :=
  .next (stageMsg s a w.toNat ((· == 2)))

/-- R412: MSG resume sets a send channel to resuming, becoming ready when in flight reaches 0. -/
def execMsgResume (a : Issue) (w : BitVec 56) (s : State) : Answer :=
  .next (stageMsg s a w.toNat ((· == 3)))

/-- R459: DMA with direction 00 sends one DMA_READ request for HBM rows into local rows. -/
def execDmaHbmToRows (a : Issue) (w : BitVec 56) (s : State) : Answer :=
  .next (stageDma s a w.toNat false)

/-- R460: DMA with direction 01 sends local rows to HBM as DMA_WRITE packets. -/
def execDmaRowsToHbm (a : Issue) (w : BitVec 56) (s : State) : Answer :=
  .next (stageDma s a w.toNat true)

/-- R135: Control slot hands rows to a stream output port, taking one credit per row. -/
def execSpush (a : Issue) (w : BitVec 56) (s : State) : Answer :=
  .next (stage s a 0x8D w.toNat)

/-- R129: Control slot compares the accumulated signature with its expected value and clears it. -/
def execSigchk (a : Issue) (w : BitVec 56) (s : State) : Answer :=
  .next (stage s a 0x8E w.toNat)

/-- R128: Control slot stops issue after its bundle and closes the core's receive channels. -/
def execHalt (a : Issue) (w : BitVec 56) (s : State) : Answer :=
  .next (stage s a 0x8F w.toNat)

/-- R164: A program fault halts the core, and the proctor stops and reports its placement. -/
def execProgramFault (u : Site) (s : State) : Answer :=
  .next (storedFault s u.val)

end Sys2Proof.Machine
end

