-- ==== Sys2Proof/Machine/MatrixCmds.lean ====
section
/-! DEFINITION. The commands of an M-core's slots (R157, R158) and the events of its units. -/

namespace Sys2Proof.Machine

/-- R182: Feeder command queues vectors from scratchpad row groups into the feeder queues. -/
def execFeed (a : Issue) (w : BitVec 88) (s : State) : Answer :=
  .next (stage s a 0x20 w.toNat)

/-- R157: Feeder command ends the current FEED after the vector in flight. -/
def execFstop (a : Issue) (w : BitVec 88) (s : State) : Answer :=
  .next (stage s a 0x21 w.toNat)

/-- R179: Array command loads a weight tile into the shadow buffer and computes its row sums. -/
def execLdw (a : Issue) (w : BitVec 56) (s : State) : Answer :=
  .next (stage s a 0x28 w.toNat)

/-- R180: Array command marks the shadow tile to become active at the next PASS. -/
def execSwap (a : Issue) (w : BitVec 56) (s : State) : Answer :=
  .next (stage s a 0x29 w.toNat)

/-- R185: Array command passes feeder vectors through the active tile into tally slots. -/
def execPass (a : Issue) (w : BitVec 56) (s : State) : Answer :=
  .next (stage s a 0x2A w.toNat)

/-- R188: Array command clears tally slots to EMPTY once their contributions are final. -/
def execTclr (a : Issue) (w : BitVec 56) (s : State) : Answer :=
  .next (stage s a 0x2B w.toNat)

/-- R213: Matrix-vector command multiplies a stored matrix by one vector into matrix-vector slots. -/
def execMvm (a : Issue) (w : BitVec 88) (s : State) : Answer :=
  .next (stage s a 0x30 w.toNat)

/-- R209: Drain command rounds tally slots into output rows or a stream port. -/
def execDrain (a : Issue) (w : BitVec 56) (s : State) : Answer :=
  .next (stage s a 0x38 w.toNat)

/-- R159: Check command hands the check column to the array or the matrix-vector path. -/
def execChkown (a : Issue) (w : BitVec 56) (s : State) : Answer :=
  .next (stage s a 0x3C w.toNat)

/-- R221: Check command accumulates the column-sum check of the preceding MVM. -/
def execChkcs (a : Issue) (w : BitVec 56) (s : State) : Answer :=
  .next (stage s a 0x3D w.toNat)

/-- R183: The feeder reads a row group once every queue has room for its vectors. -/
def execFeedRowGroupRead (u : Site) (s : State) : Answer :=
  .next (onM s u.val feedRead)

/-- R181: An LDW begins once the buffer released by a SWAP becomes free. -/
def execLdwBegin (u : Site) (s : State) : Answer :=
  .next (onM s u.val ldwBegin)

/-- R180: A PASS begins once its SWAP's LDW is complete. -/
def execPassBegin (u : Site) (s : State) : Answer :=
  .next (onM s u.val passBegin)

/-- R185: A vector, or a bubble if it is not ready, enters logical row 0 of the array and is checked for rate class. -/
def execVectorEntry (u : Site) (s : State) : Answer :=
  .next (onM s u.val vectorEntry)

/-- R200: A contribution reaches its tally slot and is added under the window rules, with the error of a cell if one strikes it. -/
def execAddToTally (x : TallyInput) (s : State) : Answer :=
  .next (onM s x.site.val fun s u => tallyAdd s u x.upset)

/-- R210: The drain takes a slot whose tallies are final, compares and rounds it, and writes its rows. -/
def execDrainVector (u : Site) (s : State) : Answer :=
  .next (onM s u.val drainVector)

/-- R214: An MVM begins once its slots are EMPTY and the previous CHKCS has issued its last read. -/
def execMvmBegin (u : Site) (s : State) : Answer :=
  .next (onM s u.val mvmBegin)

/-- R221: At the later of the MVM and CHKCS completions the sums are compared and the slots' drain is released. -/
def execChkcsTest (u : Site) (s : State) : Answer :=
  .next (onM s u.val chkcsTest)

/-- R224: The check column changes owner 1 A-cycle after the current owner's queued work completes. -/
def execChkownHandover (u : Site) (s : State) : Answer :=
  .next (onM s u.val chkownHandover)

end Sys2Proof.Machine
end

