-- ==== Sys2Proof/Machine/Reports.lean ====
section
/-! DEFINITION. Reporting (R788 to R802) and the clearing of the field defect map (R824). -/

namespace Sys2Proof.Machine

/-! ## RPT_ROUTE, RPT_COLLECT, RPT_RDIDX (R793, R798, R799, R802) -/

/-- A write of RPT_ROUTE word 0 (R793, R798): entries queued for management are dropped when the route becomes host. -/
def writeRoute (s : State) (v : Nat) : Option State :=
  let route := bits v 1 0
  let per := bits v 15 8
  let flush := bits v 23 16
  if route = 3 ∨ per < 1 ∨ 16 < per ∨ flush < 1 ∨ 100 < flush ∨ ((route = 1 ∨ route = 2) ∧ !bit s.rpt.collect0.toNat 63) then none
  else
    let s := { s with rpt := { s.rpt with route := BitVec.ofNat 2 route, perGram := BitVec.ofNat 8 per, flush := BitVec.ofNat 8 flush } }
    if route = 0 ∧ s.rpt.queue ≠ [] then
      some (raiseCause { s with rpt := { s.rpt with losses := sat32 s.rpt.losses s.rpt.queue.length, queue := [] } } 5)
    else some s

/-- A write of one word of RPT_COLLECT (R799): refused while the route is 01 or 10, and where it sets valid with a port of 0. -/
def writeCollect (s : State) (word v : Nat) : Option State :=
  if s.rpt.route = 1 ∨ s.rpt.route = 2 then none
  else
    let w := BitVec.ofNat 64 v
    match word with
    | 0 => if bit v 63 ∧ (bits v 47 32 = 0 ∨ bits v 31 16 = 0) then none else some { s with rpt := { s.rpt with collect0 := w } }
    | 1 => some { s with rpt := { s.rpt with collect1 := w } }
    | _ => some { s with rpt := { s.rpt with collect2 := w } }

/-- The entry of a sequence as the persistent card holds it (R788, R802). -/
def heldEntry (s : State) (seq : Nat) : Option (List Word) :=
  match tget [] s.rpt.card (seq % 16384) with
  | [] => none
  | w => if entrySeq w = seq then some w else none

/-- A write of RPT_RDIDX (R802). -/
def readIndex (s : State) (v : Nat) : State :=
  let seq := bits v 63 32
  { s with rpt := { s.rpt with
      rdIdx := BitVec.ofNat 32 seq
      rdRes := (heldEntry s seq).elim 2 fun _ => 1
      rdData := (heldEntry s seq).getD (List.replicate 8 0) } }

/-! ## Datagrams (R797, R800) -/

/-- The header of a report datagram, in network byte order, as four words of eight bytes. -/
def gramHeader (s : State) (n first : Nat) : List Word :=
  [BitVec.ofNat 64 (fields [(0x53565243, 32), (1, 24), (n, 16)]), BitVec.ofNat 64 (s.fuses.moduleId.toNat % 2 ^ 64),
   BitVec.ofNat 64 (fields [(s.rpt.gramSeq.toNat, 32), (first, 0)]), BitVec.ofNat 64 (s.rpt.losses.toNat * 2 ^ 32)]

/-- Whether a datagram is due: enough entries, or the oldest has waited for the flush interval (1 ms is 100,000 T ticks), and at
most one per 500 µs, 50,000 T ticks. -/
def gramDue (s : State) : Bool :=
  let r := s.rpt
  let rested := match r.lastGram with | some t => decide (50000 ≤ (s.clk.master - t).toNat) | none => true
  match r.queue with
  | [] => false
  | w :: _ => mgtUp s && rested
      && (decide (r.perGram.toNat ≤ r.queue.length) || decide (r.flush.toNat * 100000 ≤ nowT s - entryStamp w))

/-- One report datagram leaves. -/
def sendGram (s : State) : State :=
  if gramDue s then
    let es := s.rpt.queue.take s.rpt.perGram.toNat
    let s' := putOut s (.datagram (gramHeader s es.length (entrySeq (es.headD []))) es)
    { s' with rpt := { s'.rpt with queue := s'.rpt.queue.drop es.length, gramSeq := s'.rpt.gramSeq + 1, sent := sat32 s'.rpt.sent 1,
                                   lastGram := some s.clk.master } }
  else s

/-! ## The field defect map (R824) -/

/-- A write of TST_FDMCLR word 0. -/
def clearFdm (s : State) (v : Nat) : State :=
  let s := { s with exm := { s.exm with fdmConf := BitVec.ofNat 32 (bits v 31 0) } }
  if !bit v 63 then s
  else if s.fuses.life ≠ 3 then { s with exm := { s.exm with fdmRes := 2 } }
  else if bits v 31 0 ≠ s.fuses.moduleId.toNat % 2 ^ 32 then { s with exm := { s.exm with fdmRes := 3 } }
  else
    let s := { s with exm := { s.exm with fdmRes := 1, fdmCount := sat16 0 s.rpt.fdm.length }, rpt := { s.rpt with fdm := [] } }
    postEntry s { kind := 0x0B, stamp := s.clk.master, action := 0 }

/-! ## Persisting (R790) -/

/-- Up to n tail entries move into their slots, 64 in one ms of module time at most; 1 ms is 100,000 T ticks. -/
def moveTail (s : State) (n : Nat) : State :=
  let ms := nowT s / 100000
  let used := if s.rpt.moved.1 = ms then s.rpt.moved.2 else 0
  let k := min (min n (64 - used)) s.rpt.tail.length
  let s := persist s k
  { s with rpt := { s.rpt with moved := (ms, used + k) } }

/-! ## Commands -/

/-- R790: The proctor moves tail entries into their MRAM slots at up to 64 entries per ms. -/
def execReportPersist (n : Fin 65) (s : State) : Answer := .next (if powered s then moveTail s n.val else s)

/-- R797: A report datagram is sent when enough entries wait or the flush interval passes. -/
def execDatagram (s : State) : Answer := .next (sendGram s)

/-- R796: The management link synchronises, and the route comes up where the rest of R880 holds. -/
def execManagementRouteUp (s : State) : Answer := .next { s with sbd := { s.sbd with synced := true } }

/-- R795: The management link loses synchronisation, and the route is down. -/
def execManagementRouteDown (s : State) : Answer := .next { s with sbd := { s.sbd with synced := false } }

end Sys2Proof.Machine
end

