-- ==== Sys2Proof/Machine/Secure.lean ====
section
/-! DEFINITION. Command blocks (R829 to R838, R861, R862), firmware (R839 to R851, R858) and attestation (R853 to R856, R860). -/

namespace Sys2Proof.Machine

/-! ## Command blocks (R829 to R832) -/

/-- Bytes hi to lo of a block, as one number (R100). -/
def blk (b : BitVec 4096) (hi lo : Nat) : Nat := bits b.toNat (8 * hi + 7) (8 * lo)
def blkOp (b : BitVec 4096) : Nat := blk b 0 0
def blkLen (b : BitVec 4096) : Nat := blk b 3 2
def blkCounter (b : BitVec 4096) : Word := BitVec.ofNat 64 (blk b 15 8)

/-- Whether a LIFECYCLE block carries a wrapped key (R833). -/
def carriesKey (s : State) (target : Nat) : Bool := target == 3 || (target == 2 && s.fuses.life == 3)

/-- Whether the body's length suits the opcode, and its reserved bytes are zero (R829, R833). -/
def bodyOk (s : State) (b : BitVec 4096) : Bool :=
  let n := blkLen b
  (match blkOp b with
   | 1 => (if carriesKey s (blk b 48 48) then n == 65 else decide (1 ≤ n ∧ n ≤ 33)) && blk b 80 49 == 0
   | 2 => n == 32
   | 3 => n == 65 && blk b 112 112 < 4
   | 4 => n == 32 && bits (blk b 55 48) 25 0 == 0 && bits (blk b 63 56) 7 0 == 0 && bits (blk b 71 64) 63 40 == 0
   | 5 => n == 0
   | 6 => n == 2
   | 7 => n == 12 && blk b 49 49 == 0 && decide (blk b 48 48 ≤ 8)
   | _ => false) && b.toNat >>> (8 * (48 + n)) == 0

/-- Check 1 of R831. -/
def formatOk (s : State) (b : BitVec 4096) : Bool :=
  decide (1 ≤ blkOp b ∧ blkOp b ≤ 7) && blk b 1 1 == 1 && decide (blkLen b ≤ 464) && blk b 7 4 == 0 && bodyOk s b

/-- The tag that a block must carry (R830). -/
def tagOf (key : BitVec 256) (b : BitVec 4096) : Nat :=
  let ws := (upFrom 0 64).map fun i => BitVec.ofNat 64 (blk b (8 * i + 7) (8 * i))
  (Config.kmac256 key (ws.take 4 ++ ws.drop 6) 1).toNat % 2 ^ 128

/-- The life-cycle states that permit an opcode (R833). -/
def stateOk (s : State) (op : Nat) : Bool :=
  let l := s.fuses.life.toNat
  match op with
  | 3 => l == 1 || l == 2 || l == 3
  | 5 => l == 0 || l == 3
  | 7 => l == 0 || l == 3
  | _ => decide (l < 4)

/-- The transitions of R818. -/
def transitionOk (s : State) (target : Nat) : Bool :=
  match s.fuses.life.toNat, target with
  | 4, _ => false
  | _, 4 => true
  | 0, 1 => true
  | 1, 2 => true
  | 2, 3 => decide (s.fuses.returns.toNat < 2)
  | 3, 2 => true
  | _, _ => false

/-- Checks 1 to 5 of R831: the result of the first that fails. -/
def blockCheck (s : State) (b : BitVec 4096) : Option Nat :=
  let tagBad := match s.sec.key with | some k => tagOf k b != blk b 47 32 | none => true
  if !formatOk s b then some 1
  else if blk b 31 16 ≠ s.fuses.moduleId.toNat then some 2
  else if tagBad then some 3
  else if blkCounter b ≤ s.sec.counter then some 4
  else if !stateOk s (blkOp b) || (blkOp b == 1 && !transitionOk s (blk b 48 48)) then some 5
  else none

/-- A refusal (R857, R861, R862): the completion, the entry, and the hold after a wrong tag, 10 ms being 1,000,000 T ticks. -/
def refuseBlock (s : State) (c : Cmd) (op result detail : Nat) : State :=
  let s := { s with sec := { s.sec with
      result := BitVec.ofNat 8 result, detail := BitVec.ofNat 8 detail, opcode := BitVec.ofNat 8 op
      tagFails := if result = 3 then sat8 s.sec.tagFails 1 else s.sec.tagFails
      holdTill := if result = 3 then some (s.clk.master + 1000000) else s.sec.holdTill } }
  endCmd (postEntry s { kind := 0x0B, code := result, stamp := s.clk.master, action := 0 }) c 1 0x27

/-- How an opcode's own checks and effect end (R831 check 6): done, refused with a detail, or waiting. -/
inductive BlockEnd where
  | done (s : State)
  | refused (detail : Nat)
  | waits (s : State)

/-- Whether the module examines AUTH commands now (R862). -/
def examining (s : State) : Bool := s.sec.holdTill.isNone && s.brg.phase == 6

/-- The AUTH command at the front of ring 8 with its block (R831, R832): checks 1 to 4, the counter, check 5 and the opcode's
own. -/
def runBlock (s : State) (op : Nat) (readOk : Bool) (b : BitVec 4096) (go : State → Cmd → BlockEnd) : State :=
  match nextOf s 5 with
  | none => s
  | some c =>
    if !examining s || !readOk || blkOp b != op || blk b 1 1 != 1 then s
    else
      let s := { s with sec := { s.sec with opcode := BitVec.ofNat 8 op } }
      match blockCheck s b with
      | some 5 => refuseBlock { s with sec := { s.sec with counter := blkCounter b } } c op 5 0
      | some r => refuseBlock s c op r 0
      | none =>
        let s := { s with sec := { s.sec with counter := blkCounter b } }
        match go s c with
        | .done s => endCmd { s with sec := { s.sec with result := 0, detail := 0 } } c 0 0
        | .refused d => refuseBlock s c op 6 d
        | .waits s => beginCmd { s with sec := { s.sec with result := 0, detail := 0 } } c

/-- The key that a body's 32 wrapped bytes hold (R836). -/
def unwrapKey (s : State) (b : BitVec 4096) (lo : Nat) : BitVec 256 :=
  let id := s.fuses.moduleId.toNat
  BitVec.ofNat 256 (blk b (lo + 31) lo) ^^^
    Config.kmac256 (s.sec.key.getD 0) [blkCounter b, BitVec.ofNat 64 id, BitVec.ofNat 64 (id / 2 ^ 64)] 2

/-! ## The opcodes (R833) -/

/-- LIFECYCLE: the pending state is recorded (R819); a module whose key epoch is 0 does not enter FIELD (R837). -/
def doLifecycle (b : BitVec 4096) (s : State) (_c : Cmd) : BlockEnd :=
  let t := blk b 48 48
  if s.fuses.life = 1 ∧ t = 2 ∧ s.sec.epoch = 0 then .refused 6
  else .done { s with exm := { s.exm with pending := BitVec.ofNat 3 t,
                                          pendKey := if carriesKey s t then some (unwrapKey s b 81) else none } }

/-- KEY_ROTATE (R836). -/
def doKeyRotate (b : BitVec 4096) (s : State) (_c : Cmd) : BlockEnd :=
  .done { s with sec := { s.sec with key := some (unwrapKey s b 48), epoch := s.sec.epoch + 1 } }

/-- The mark, the format version and the reserved bytes of a header block (R839). -/
def hdrForm (h : BitVec 32768) : Bool :=
  hdr h 3 0 == 0x53564657 && hdr h 5 4 == 1 && hdr h 23 20 == 0 && hdr h 255 96 == 0 && hdr h 4095 3629 == 0
/-- Bytes 0 to 255 of a header block, which the measurement and the signatures cover (R839, R840). -/
def hdrSigned (h : BitVec 32768) : BitVec 2048 := BitVec.ofNat 2048 (hdr h 255 0)
/-- The firmware measurement (R840). -/
def fwMeasure (h : BitVec 32768) : BitVec 512 := Config.sha3 [(hdrSigned h).setWidth 4096] 256
/-- What an area of proctor SRAM holds of an image (R845). -/
def fwArea (i : FwImage) : Firmware := { head := i.head, body := i.body, measure := fwMeasure i.head }

/-- The result of verifying a firmware image (R841): 0 where every check passes; a slot past 3 has no key (R825). -/
def fwVerdict (s : State) (rows : Nat) (i : FwImage) : Nat :=
  let h := i.head
  if !i.readOk then 1
  else if !hdrForm h then 2
  else if hdrLength h < 1 ∨ 6287360 < hdrLength h ∨ rows * 512 < 4096 + hdrLength h then 3
  else if s.fuses.revision < hdrRevision h then 4
  else if (hdrSlot h).toNat < s.sec.slotFloor.toNat then 5
  else if hdrSecurity h < s.sec.floor then 6
  else if (Config.sha3 i.body (hdrLength h)).toNat ≠ hdr h 95 32 then 7
  else if 4 ≤ hdrSlot h || !Config.ed25519Ok (hdrSlot h) (hdrSigned h) (BitVec.ofNat 512 (hdr h 319 256)) then 8
  else if !Config.mlDsaOk (hdrSlot h) (hdrSigned h) (BitVec.ofNat 26472 (hdr h 3628 320)) then 9
  else 0

/-- FW_ACTIVATE (R847, R848): the activation waits for its moment. -/
def doFwActivate (b : BitVec 4096) (s : State) (c : Cmd) : BlockEnd :=
  match s.sec.fwStaged with
  | none => .refused 3
  | some i =>
    if s.sec.fwVerified = false then .refused 3
    else if blk b 111 48 ≠ i.measure.toNat then .refused 4
    else .waits { s with sec := { s.sec with waiting := some (c.index, BitVec.ofNat 2 (blk b 112 112)) } }

/-- The pass that a body describes (R264). -/
def passOf (b : BitVec 4096) : HallPass :=
  let w0 := blk b 55 48
  let w1 := blk b 63 56
  { number := BitVec.ofNat 16 (bits w0 63 48), dst := BitVec.ofNat 14 (bits w0 47 34), counter := BitVec.ofNat 6 (bits w0 33 28),
    paused := false, base := bits w1 63 48, rows := bits w1 47 32 + 1, srcBase := BitVec.ofNat 12 (bits w1 31 20),
    srcMask := BitVec.ofNat 12 (bits w1 19 8), credit := bits (blk b 71 64) 39 0, expiry := BitVec.ofNat 64 (blk b 79 72),
    accepted := 0, refusedW := 0 }

/-- Whether the fields other than credit and expiry agree (R834). -/
def samePass (h k : HallPass) : Bool :=
  h.dst == k.dst && h.counter == k.counter && h.base == k.base && h.rows == k.rows && h.srcBase == k.srcBase && h.srcMask == k.srcMask

/-- The checks on a new pass at the core of a site (R265). -/
def mayOpen (s : State) (u : Nat) (h : HallPass) : Bool :=
  let c := getCore s u
  h.number != 0 && decide (s.passDir.length < 1024) && decide (c.passes.length < 4) && isCoreKind (kindOf s u) && !isFenced s u
    && (match c.plc with | some p => (getPlc s p.val).state != .absent | none => false)
    && decide (h.base + h.rows ≤ rowCount c.profile)
    && (c.passes.all fun k => decide (h.base + h.rows ≤ k.base ∨ k.base + k.rows ≤ h.base))
    && h.credit % 512 == 0 && decide (nowT s < h.expiry.toNat)

/-- The cores that hold a pass: its destination, and while its unit is replaced the substitute too (R275). -/
def passHolders (s : State) (n : Nat) : List Nat := (s.cores.filter fun e => (findPass e.2 n).isSome).map (·.1)

/-- HP_OPEN (R834, R265 to R267): of an open pass, more credit and a later expiry wherever it is held. -/
def doHpOpen (b : BitVec 4096) (s : State) (_c : Cmd) : BlockEnd :=
  let h := passOf b
  let n := h.number.toNat
  match s.passDir.find? fun d => d.1 == h.number with
  | some _ =>
    match (passHolders s n).findSome? fun u => findPass (getCore s u) n with
    | none => .refused 1
    | some k =>
      if !samePass h k || h.credit % 512 != 0 then .refused 1
      else if 2 ^ 40 - 512 < k.credit + h.credit then .refused 2
      else .done ((passHolders s n).foldl (fun s u => modPass s u n fun k =>
        { k with credit := k.credit + h.credit, expiry := if k.expiry ≤ h.expiry then h.expiry else k.expiry }) s)
  | none =>
    match (if h.dst.toNat < 12800 then siteOfId s h.dst.toNat else none) with
    | none => .refused 1
    | some u =>
      if mayOpen s u h then
        .done (modCore { s with passDir := s.passDir ++ [(h.number, h.dst)], clk := { s.clk with setOk := false } } u fun c =>
          { c with passes := c.passes ++ [h] })
      else .refused 1

/-- TEST_ACCESS (R821): every placement is unloaded, every pass closed, no ring is fetched, and the next start is slow. -/
def doTestAccess (s : State) (_c : Cmd) : BlockEnd :=
  let s := (s.plcs.map (·.1)).foldl (fun s p => releasePlacement (discardDescs s p 0x22 true) p) s
  .done { s with
    exm := { s.exm with raw := true }
    brg := { s.brg with savedOk := false }
    passDir := []
    cores := tmap core0 (fun _ c => { c with passes := [] }) s.cores }

/-- POWER_CAP: the cap field is set, raised or lowered. -/
def doPowerCap (b : BitVec 4096) (s : State) (_c : Cmd) : BlockEnd :=
  let v := blk b 49 48
  if v < 3000 ∨ 5400 < v then .refused 5 else .done { s with chk := { s.chk with cap := BitVec.ofNat 16 v } }

/-- FUSE_PROGRAM (R835): what is blown is recorded, and takes effect at the next start. -/
def doFuseProgram (b : BitVec 4096) (s : State) (_c : Cmd) : BlockEnd :=
  let word := BitVec.ofNat 16 (blk b 51 50)
  if blk b 48 48 = 8 ∧ Config.protectedFuse word then .refused 7
  else .done { s with fuses := { s.fuses with blown := s.fuses.blown ++
      [(BitVec.ofNat 8 (blk b 48 48), word, BitVec.ofNat 64 (blk b 59 52))] } }

/-- An AUTH command whose block cannot be read, or whose opcode or version is not defined (R831 check 1). -/
def authBad (s : State) (readOk : Bool) (b : BitVec 4096) : State :=
  match nextOf s 5 with
  | none => s
  | some c =>
    if examining s && (!readOk || !decide (1 ≤ blkOp b ∧ blkOp b ≤ 7) || blk b 1 1 != 1) then
      refuseBlock s c (if readOk then blkOp b else 0) 1 0
    else s

/-! ## Firmware (R843 to R851, R858) -/

/-- Whether an activation may switch now (R848). -/
def maySwitch (s : State) : Bool :=
  (s.rcv.runs.all fun e => e.2.isNone) && (s.plcs.all fun e => e.2.state != .recovering)
    && (s.cmds.all fun c => !(c.started && cmdOp c != 5)) && s.xport.isNone && (s.pwr.phase == .run || s.pwr.phase == .nap)

/-- The switch to the staged image (R842, R849): the floors rise where the block asks for it, and T0 starts afresh. -/
def firmwareSwitch (s : State) : State :=
  match s.sec.waiting, s.sec.fwStaged with
  | some (index, flags), some i =>
    if !maySwitch s then s
    else
      let s := { s with
        sec := { s.sec with
          waiting := none, fwRunning := some i, fwStaged := none, fwVerified := false, updates := sat8 s.sec.updates 1
          floor := if bit flags.toNat 0 ∧ s.sec.floor < hdrSecurity i.head then hdrSecurity i.head else s.sec.floor
          slotFloor := if bit flags.toNat 1 ∧ s.sec.slotFloor.toNat < (hdrSlot i.head).toNat then (hdrSlot i.head).setWidth 2
                       else s.sec.slotFloor }
        pwr := { s.pwr with t0Start := s.clk.master } }
      match s.cmds.find? fun c => c.index == index with
      | some c => endCmd s c 0 0
      | none => s
  | _, _ => s

/-- A write of FW_LOAD, with the image that the host window holds (R843 to R846, R858): none where the write is refused. -/
def loadFirmware (s : State) (v : Nat) (i : FwImage) : Option State :=
  let rows := bits v 49 36
  if bit v 62 ∨ bits v 52 50 ≠ 0 ∨ (bit s.sec.fwReq.toNat 63 ∧ s.sec.fwReq.toNat ≠ v) then none
  else if !bit v 63 then some { s with sec := { s.sec with fwReq := BitVec.ofNat 64 v } }
  else if bits v 61 53 < 8 ∨ 479 < bits v 61 53 ∨ rows < 9 ∨ 12288 < rows ∨ bits v 8 0 ≠ 0 ∨ (lowestPort (isUp s)).isNone then none
  else
    let r := fwVerdict s rows i
    let sec := { s.sec with fwReq := BitVec.ofNat 64 (v % 2 ^ 63), fwRes := BitVec.ofNat 8 r }
    if s.sec.fwRunning.isNone then
      if s.pwr.state ≠ .startup then none else some { s with sec := { sec with fwRunning := if r = 0 then some (fwArea i) else none } }
    else if s.pwr.phase = .run ∨ s.pwr.phase = .nap then
      if s.sec.waiting.isSome then none else some { s with sec := { sec with fwStaged := some (fwArea i), fwVerified := r == 0 } }
    else none

/-! ## Attestation (R853 to R856, R860) -/

/-- n rows of a list, zeros past its end. -/
def padRows (l : List Row) (n : Nat) : List Row := (l ++ List.replicate n 0).take n

/-- The body of a report (R855), each field at its byte. -/
def reportBody (s : State) : Row :=
  let put := fun (byte v : Nat) => v * 2 ^ (8 * byte)
  let (rel, ver, slot, meas) := match s.sec.fwRunning with
    | some i => ((hdrRelease i.head).toNat, (hdrSecurity i.head).toNat, (hdrSlot i.head).toNat, i.measure.toNat)
    | none => (0, 0, 0, 0)
  let flags := ofBool s.brg.below + 2 * ofBool s.brg.accepted + 4 * ofBool s.chk.void + 8 * ofBool s.clk.uncertain + 16 * ofBool s.exm.raw
  BitVec.ofNat 4096 (put 0 0x53564154 + put 4 1 + put 6 19 + put 8 s.fuses.moduleId.toNat + put 24 s.sec.nonce.toNat + put 56 (nowT s)
    + put 64 s.fuses.life.toNat + put 65 s.fuses.coreGrade + put 66 s.fuses.memGrade + put 67 s.fuses.linkGrade
    + put 68 s.fuses.revision.toNat + put 69 flags + put 72 rel + put 80 ver + put 84 s.sec.floor.toNat + put 88 slot
    + put 89 s.sec.slotFloor.toNat + put 96 meas + put 160 s.sec.counter.toNat + put 168 s.sec.epoch.toNat + put 172 s.sec.updates.toNat)

/-- The rows of a document (R854, R856). -/
def document (s : State) (certificate : Bool) : List Row :=
  if certificate then padRows (Config.identityRows s.fuses.moduleId) 15
  else
    let meas := match s.sec.fwRunning with | some i => i.measure | none => 0
    reportBody s :: padRows (Config.attestTail meas (reportBody s)) 18

/-- A write of SEC_ATTEST with its request bit (R853, R860): the document leaves by the lowest-numbered up port, and the result
shows how it ended. -/
def attest (s : State) (v : Nat) (nonce : BitVec 256) (hostOk certificate : Bool) : Option State :=
  if !bit v 63 ∨ bit v 62 ≠ certificate ∨ bits v 61 53 < 8 ∨ 479 < bits v 61 53 ∨ bits v 49 36 ≠ 0 ∨ bits v 8 0 ≠ 0
      ∨ s.sec.fwRunning.isNone ∨ !powered s
      ∨ (bit s.sec.attest.toNat 63 ∧ (bits s.sec.attest.toNat 63 53 ≠ bits v 63 53 ∨ bits s.sec.attest.toNat 35 0 ≠ bits v 35 0
          ∨ s.sec.nonce ≠ nonce)) then none
  else
    let s := { s with sec := { s.sec with nonce := nonce } }
    let fin := fun (s : State) (r : Nat) =>
      { s with sec := { s.sec with attest := BitVec.ofNat 64 (bits v 62 53 * 2 ^ 53 + r * 2 ^ 50 + bits v 35 0) } }
    if s.fuses.life = 4 then some (fin s 3)
    else match lowestPort (isUp s) with
      | none => some (fin s 2)
      | some n =>
        let rows := (document s certificate).zipIdx
        let s := rows.foldl (fun s r => putOut s
          (.hostRow (Fin.ofNat 32 n) (BitVec.ofNat 9 (bits v 61 53)) (bits v 35 0 + 512 * r.2) r.1)) s
        some (fin s (if hostOk then 1 else 2))

/-! ## Commands -/

/-- R833: An authenticated LIFECYCLE block records a pending life-cycle transition. -/
def execLifecycle (readOk : Bool) (b : BitVec 4096) (s : State) : Answer := .next (runBlock s 1 readOk b (doLifecycle b))

/-- R836: An authenticated KEY_ROTATE block installs a new command key. -/
def execKeyRotate (readOk : Bool) (b : BitVec 4096) (s : State) : Answer := .next (runBlock s 2 readOk b (doKeyRotate b))

/-- R848: An authenticated FW_ACTIVATE block waits for quiescence to switch to the staged image; one at a time. -/
def execFwActivate (readOk : Bool) (b : BitVec 4096) (s : State) : Answer :=
  .next (if s.sec.waiting.isSome then s else runBlock s 3 readOk b (doFwActivate b))

/-- R834: An authenticated HP_OPEN block opens a hall pass or adds credit to it. -/
def execHpOpen (readOk : Bool) (b : BitVec 4096) (s : State) : Answer := .next (runBlock s 4 readOk b (doHpOpen b))

/-- R821: An authenticated TEST_ACCESS block opens a raw scan session, ending service. -/
def execTestAccess (readOk : Bool) (b : BitVec 4096) (s : State) : Answer := .next (runBlock s 5 readOk b doTestAccess)

/-- R833: An authenticated POWER_CAP block sets the cap, raising or lowering it. -/
def execPowerCap (readOk : Bool) (b : BitVec 4096) (s : State) : Answer := .next (runBlock s 6 readOk b (doPowerCap b))

/-- R835: An authenticated FUSE_PROGRAM block blows permitted fuse bits. -/
def execFuseProgram (readOk : Bool) (b : BitVec 4096) (s : State) : Answer := .next (runBlock s 7 readOk b (doFuseProgram b))

/-- R831: The AUTH command reads a command block whose opcode or version is undefined, or whose read fails, and refuses it with
FORMAT. -/
def execAuth (readOk : Bool) (b : BitVec 4096) (s : State) : Answer := .next (authBad s readOk b)

/-- R862: 10 ms after a TAG refusal the module resumes examining waiting AUTH commands. -/
def execAuthHoldEnd (s : State) : Answer :=
  .next (match s.sec.holdTill with
    | some t => if t ≤ s.clk.master then { s with sec := { s.sec with holdTill := none } } else s
    | none => s)

/-- R849: At its quiescent point the firmware hands over and the staged image starts. -/
def execFirmwareSwitch (s : State) : Answer := .next (firmwareSwitch s)

/-- R843: A load request reads and verifies a firmware image for boot or staging. -/
def execFwLoad (v : Word) (img : FwImage) (s : State) : Answer := .next ((loadFirmware s v.toNat img).getD s)

/-- R854: A SEC_ATTEST request writes a signed attestation report to a host window. -/
def execAttestReport (v : Word) (nonce : BitVec 256) (hostOk : Bool) (s : State) : Answer :=
  .next ((attest s v.toNat nonce hostOk false).getD s)

/-- R856: A SEC_ATTEST request writes the identity certificate to a host window. -/
def execIdentityCertificate (v : Word) (hostOk : Bool) (s : State) : Answer :=
  .next ((attest s v.toNat s.sec.nonce hostOk true).getD s)

end Sys2Proof.Machine
end

