-- ==== Sys2Proof/Machine/Registers.lean ====
section
/-! DEFINITION. The set-up registers (R891 to R910): where they stand, what they read, what a write does, and the paths that
reach them: CONTROL packets (R892 to R899), the two-wire bus (R869 to R873) and the read service (R880, R881). -/

namespace Sys2Proof.Machine

/-! ## The register map (R904, R905) -/

/-- The registers, in the order of R905. -/
inductive Reg where
  | modId | clkTport | prcWakecfg | prcWakesrc | prcT0 | pwrState | pwrCap | fabEpoch | fabRsto | nlkPstat | hifRing | brgStatus
  | brgInv | brgSeat | chkCtrl | chkSuspect | chkMargin | chkDet | recReq | recStatus | recSpare | rptRoute | rptCollect | rptStatus
  | rptRdidx | rptRddata | exmCtrl | exmStatus | tstLcs | tstFdmclr | secCmd | secAttest | fwLoad | fwStatus | mgtCfg | mgtSmb
  | mgtAlert | matFeedmap | hbmTbl
  deriving DecidableEq, Repr

/-- A row of R905: a register, its first offset, its words, its instances and their stride, and whether the link and the
two-wire bus may write it. -/
structure RegRow where
  reg    : Reg
  first  : Nat
  words  : Nat
  count  : Nat
  stride : Nat
  link   : Bool
  wire   : Bool

/-- A register with one instance. -/
def oneReg (reg : Reg) (first words : Nat) (link wire : Bool) : RegRow :=
  { reg := reg, first := first, words := words, count := 1, stride := 8 * words, link := link, wire := wire }
/-- A register with instances. -/
def regList (reg : Reg) (first words count stride : Nat) (link : Bool) : RegRow :=
  { reg := reg, first := first, words := words, count := count, stride := stride, link := link, wire := false }

def regRowsLow : List RegRow :=
  [oneReg .modId 0x0 4 false false, oneReg .clkTport 0x1000 2 true false, oneReg .prcWakecfg 0x2000 1 true true,
   oneReg .prcWakesrc 0x2008 2 false false, oneReg .prcT0 0x2018 1 true true, oneReg .pwrState 0x2020 1 true true,
   oneReg .pwrCap 0x2028 1 true true, oneReg .fabEpoch 0x3000 2 false false, oneReg .fabRsto 0x3010 1 true false,
   regList .nlkPstat 0x4000 2 32 0x10 false, regList .hifRing 0x5000 3 19 0x20 true, oneReg .brgStatus 0x10000 3 false false,
   oneReg .brgInv 0x11000 1600 false false, regList .brgSeat 0x18000 128 32 0x400 false]

def regRowsMid : List RegRow :=
  [oneReg .chkCtrl 0x20000 2 true false, oneReg .chkSuspect 0x20010 2 true false, oneReg .chkMargin 0x20020 1 true false,
   regList .chkDet 0x21000 2 512 0x10 false, oneReg .recReq 0x24000 3 true false, regList .recStatus 0x24100 3 8 0x20 false,
   regList .recSpare 0x24200 1 32 0x8 false, oneReg .rptRoute 0x28000 1 true true, oneReg .rptCollect 0x28008 3 true true,
   oneReg .rptStatus 0x28020 3 false false, oneReg .rptRdidx 0x28038 1 true false, oneReg .rptRddata 0x28040 8 false false]

def regRowsHigh : List RegRow :=
  [oneReg .exmCtrl 0x2C000 1 true false, oneReg .exmStatus 0x2C040 8 false false, oneReg .tstLcs 0x2C080 1 false false,
   oneReg .tstFdmclr 0x2C0C0 2 true false, oneReg .secCmd 0x30000 2 false false, oneReg .secAttest 0x30010 5 true false,
   oneReg .fwLoad 0x30040 1 true false, oneReg .fwStatus 0x30048 3 false false, oneReg .mgtCfg 0x34000 7 true true,
   oneReg .mgtSmb 0x34040 1 true true, oneReg .mgtAlert 0x34048 2 true true, regList .matFeedmap 0x40000 2 64 0x10 false,
   regList .hbmTbl 0x100000 2 32768 0x10 true]

/-- R905. -/
def regRows : List RegRow := regRowsLow ++ regRowsMid ++ regRowsHigh

/-- The register blocks (R904): first and last offset. -/
def regBlocks : List (Nat × Nat) :=
  [(0x0, 0xFFF), (0x1000, 0x1FFF), (0x2000, 0x2FFF), (0x3000, 0x3FFF), (0x4000, 0x4FFF), (0x5000, 0x5FFF), (0x10000, 0x1FFFF),
   (0x20000, 0x23FFF), (0x24000, 0x27FFF), (0x28000, 0x2BFFF), (0x2C000, 0x2FFFF), (0x30000, 0x33FFF), (0x34000, 0x37FFF),
   (0x40000, 0x403FF), (0x100000, 0x17FFFF)]

def blockAt (off : Nat) : Option (Nat × Nat) := regBlocks.find? fun b => decide (b.1 ≤ off ∧ off ≤ b.2)

/-- A word of a register: its row, its instance and its number. -/
structure RegWord where
  row  : RegRow
  inst : Nat
  word : Nat

/-- The register word at an offset, if no gap lies there (R905). -/
def regAt (off : Nat) : Option RegWord :=
  regRows.findSome? fun r =>
    if r.first ≤ off ∧ off < r.first + r.count * r.stride ∧ (off - r.first) % r.stride < 8 * r.words then
      some { row := r, inst := (off - r.first) / r.stride, word := (off - r.first) % r.stride / 8 }
    else none

/-! ## What the registers read -/

/-- A word from its fields (R15: reserved fields read 0). -/
def fieldWord (l : List (Nat × Nat)) : Word := BitVec.ofNat 64 (fields l)

/-- CLK_TPORT (R592). -/
def readTport (s : State) (w : Nat) : Word :=
  let c := s.clk
  if w = 0 then fieldWord [(ofBool c.choice, 5), (c.chosen.val, 0)]
  else
    let st := match c.state with | .locking => 0 | .locked => 1 | .handover => 2 | .coast => 3
    fieldWord [(c.losses.toNat, 48), (c.handovers.toNat, 32), (ofBool c.uncertain, 11), (st, 9), (ofBool c.fio, 8), (c.timing.val, 0)]

/-- PRC_WAKESRC (R639). -/
def readWakesrc (s : State) (w : Nat) : Word :=
  let p := s.pwr
  if w = 0 then
    let src := match p.wakeSrc with
      | .powerOn => 0 | .twoWire => 1 | .link => 2 | .brownOut => 3 | .watchdog => 4 | .saveResume => 5
    fieldWord [(p.wakes.toNat, 16), (p.wakePort.toNat, 8), (src, 0)]
  else fieldWord [(p.saveCause.toNat, 14), (p.saveRes.toNat, 12), (ofBool p.saveSlot, 11), (p.saveDur.toNat, 0)]

/-- PWR_STATE (R642). -/
def readPower (s : State) : Word :=
  let st := match s.pwr.phase with
    | .startup => 0 | .run => 1 | .enteringNap => 2 | .nap => 3 | .leavingNap => 4 | .shuttingDown => 5
  fieldWord [(s.pwr.request.toNat, 6), (st, 3), (ofBool s.pwr.armed, 2)]

/-- HIF_RING (R542): no access to a ring is outstanding between two commands. -/
def readRing (s : State) (r w : Nat) : Word :=
  let x := getRing s r
  if w = 0 then fieldWord [(ofBool x.enable, 63), (1, 62), (x.window.toNat, 53), (x.offset.toNat, 0)]
  else if w = 1 then fieldWord [(x.mask.toNat, 32), (x.port.toNat, 8), (x.log2.toNat, 0)]
  else fieldWord [(x.prod.toNat, 32), (x.cons.toNat, 0)]

/-- BRG_STATUS (R689). -/
def readStart (s : State) (w : Nat) : Word :=
  let b := s.brg
  if w = 0 then
    fieldWord [(b.cause.toNat, 40), (ofBool b.accepted, 39), (ofBool b.below, 38), (b.kind.toNat, 36), (phaseCode s, 32)]
  else if w = 1 then fieldWord [(b.inconsistent.toNat, 32), (b.fencedUnits.toNat, 16), (b.readyMs.toNat, 0)]
  else fieldWord [(b.halfLinks.toNat, 24), (b.offLinks.toNat, 16), (b.tilesFenced.toNat, 8), (b.savedBad.toNat, 0)]

/-- The state of a unit as BRG_INV codes it (R683): a core seated away from its own, vacant site leaves that site vacant. -/
def invState (s : State) (u : Nat) : Nat :=
  match unitState s u with
  | .fusedBad => 2
  | .fieldDefect => 3
  | .rollFail => 4
  | .regionFenced => 5
  | .good =>
    if !isCoreKind (kindOf s u) then 0
    else match logicalOf s u with
      | some l => if l ≠ u ∧ (seatOf s u).isNone then 6 else 0
      | none => 1

/-- The entry of site n of a region (R683). -/
def invEntry (s : State) (r n : Nat) : Nat :=
  let v := siteXY (r % 8 * 20 + n % 20) (r / 8 * 20 + n / 20)
  let u := if inMatrix v then clusterBase v else v
  kindCode (kindOf s u) * 32 + invState s u * 4

/-- Word w of BRG_INV (R683). -/
def readInv (s : State) (w : Nat) : Word :=
  fieldWord ((upFrom 0 8).map fun k => (invEntry s (w / 50) (w % 50 * 8 + k), 8 * k))

/-- Word i of a region's delta list (R684). -/
def readSeat (s : State) (r i : Nat) : Word :=
  match (s.brg.seat.filter fun d => regionOf d.1.val == r)[i]? with
  | some (l, v) => fieldWord [(1, 63), (siteX l.val, 55), (siteY l.val, 48), (siteX v.val, 40), (siteY v.val, 33)]
  | none => 0

/-- CHK_CTRL (R695). -/
def readCheck (s : State) (w : Nat) : Word :=
  let c := s.chk
  if w = 0 then fieldWord [(ofBool c.void, 7), (c.enables.toNat, 1)]
  else fieldWord [(c.arbCount.toNat, 48), (c.wholeCount.toNat, 32), (c.detained.length, 16), (c.suspects.toNat, 0)]

/-- An entry of the detention list (R732). -/
def readDet (s : State) (i w : Nat) : Word :=
  match s.chk.detained[i]? with
  | none => 0
  | some d =>
    let u := d.unit.val
    if w = 0 then
      fieldWord [(idOfSite s u, 50), (siteX u, 42), (siteY u, 35), (kindCode (kindOf s u), 32), (ofBool d.out, 31), (d.clean, 24),
        (d.fails, 22), (trimOf s u, 18), (d.action.toNat, 16)]
    else d.since

/-- REC_REQ (R769): the request bit is clear, since a request is taken with the write that makes it. -/
def readReq (s : State) (w : Nat) : Word :=
  let r := s.rcv
  if w = 0 then fieldWord [(r.reqAct.toNat, 60), (r.reqUnit.toNat, 46)]
  else if w = 1 then fieldWord [(r.reqId.toNat, 32)]
  else fieldWord [(r.lastId.toNat, 32), (r.result.toNat, 30), (r.refusal.toNat, 24)]

/-- REC_STATUS (R778). -/
def readRec (s : State) (p w : Nat) : Word :=
  let r := s.rcv
  if w = 0 then
    let st := match (getPlc s p).state with | .recovering => 1 | .stopped => 2 | _ => 0
    fieldWord [(st, 62), ((tget 0 r.causes p).toNat, 48), ((tget 0 r.lastAck p).toNat, 0)]
  else if w = 1 then fieldWord [((tget 0 r.count p).toNat, 32), ((tget 0 r.interr p).toNat, 0)]
  else tget 0 r.detect p

/-- REC_SPARE (R746). -/
def readSpare (s : State) (r : Nat) : Word :=
  let n := fun (k : Nat) => (ledger s k r).length
  let deltas := (s.brg.seat.filter fun d => regionOf d.1.val == r).length
  fieldWord [(n 2, 38), (n 1, 32), (n 0, 25), (deltas, 8), (tget 0 s.rcv.fenced r, 0)]

/-- RPT_COLLECT (R799): what IPv4 reserves reads 0. -/
def readCollect (s : State) (w : Nat) : Word :=
  let r := s.rpt
  let v6 := bit r.collect0.toNat 62
  if w = 0 then r.collect0
  else if w = 1 then (if v6 then r.collect1 else BitVec.ofNat 64 (bits r.collect1.toNat 31 0))
  else if v6 then r.collect2 else 0

/-- RPT_STATUS (R801). -/
def readReports (s : State) (w : Nat) : Word :=
  let r := s.rpt
  if w = 0 then fieldWord [(r.next.toNat, 32), (r.queue.length, 23), (ofBool (!mgtUp s), 22)]
  else if w = 1 then fieldWord [(r.losses.toNat, 32), (r.sent.toNat, 0)]
  else fieldWord [(r.overflow.toNat, 32), (r.badSlots.toNat, 0)]

/-- TST_LCS (R823). -/
def readLife (s : State) : Word :=
  fieldWord [(s.fuses.returns.toNat, 14), (s.exm.pending.toNat, 11), (ofBool s.exm.raw, 10), (s.fuses.life.toNat, 0)]

/-- FW_STATUS (R859). -/
def readFirmware (s : State) (w : Nat) : Word :=
  let c := s.sec
  let run := fun (f : BitVec 32768 → Nat) => match c.fwRunning with | some i => f i.head | none => 0
  let staged := match c.fwStaged with | some i => (hdrSecurity i.head).toNat | none => 0
  if w = 0 then
    fieldWord [(c.fwRes.toNat, 56), (ofBool c.fwVerified, 55), (ofBool c.waiting.isSome, 54), (c.slotFloor.toNat, 48),
      (run fun h => (hdrSlot h).toNat, 40), (c.updates.toNat, 32), (c.floor.toNat, 0)]
  else if w = 1 then BitVec.ofNat 64 (run fun h => (hdrRelease h).toNat)
  else fieldWord [(run fun h => (hdrSecurity h).toNat, 32), (staged, 0)]

/-- MGT_CFG (R879): the MAC address comes from the module ID; what IPv4 reserves of an address reads 0. -/
def readMgt (s : State) (w : Nat) : Word :=
  let c := s.sbd.cfg
  let w0 := (c.getD 0 0).toNat
  let v6 := bit w0 61
  let x := c.getD w 0
  match w with
  | 0 => fieldWord [(bits w0 63 48, 48), (2, 40), (s.fuses.moduleId.toNat % 2 ^ 40, 0)]
  | 5 => x
  | 6 => fieldWord [(ofBool s.sbd.synced, 63), (ofBool (addrValid s), 62), (ofBool (mgtUp s), 61), (s.sbd.dropped.toNat, 0)]
  | _ => if v6 then x else if w % 2 = 1 then BitVec.ofNat 64 (bits x.toNat 31 0) else 0

/-- MOD_ID (R906). -/
def readModId (s : State) (w : Nat) : Word :=
  let f := s.fuses
  match w with
  | 0 => BitVec.ofNat 64 (f.moduleId.toNat % 2 ^ 64)
  | 1 => BitVec.ofNat 64 (f.moduleId.toNat / 2 ^ 64)
  | 2 => fieldWord [(f.coreGrade, 56), (f.memGrade, 48), (f.linkGrade, 40), (f.revision.toNat, 32), (1, 0)]
  | _ => 0

/-- Word w of instance k of a register (R905). -/
def readReg (s : State) (reg : Reg) (k w : Nat) : Word :=
  match reg with
  | .modId => readModId s w
  | .clkTport => readTport s w
  | .prcWakecfg => fieldWord [(s.pwr.wakeEn.toNat, 7), (s.pwr.wakeAddr.toNat, 0)]
  | .prcWakesrc => readWakesrc s w
  | .prcT0 => fieldWord [(ofBool s.pwr.t0Save, 31), (s.pwr.t0Period.toNat, 0)]
  | .pwrState => readPower s
  | .pwrCap => fieldWord [(effCap s, 32), (s.chk.inPower.toNat, 16), (s.chk.cap.toNat, 0)]
  | .fabEpoch => if w = 0 then fieldWord [(ofBool s.fab.retiring, 2), (ofBool s.fab.pending, 1), (ofBool s.fab.active, 0)] else s.fab.flipTime
  | .fabRsto => fieldWord [(s.fab.rstoRemote.toNat, 8), (s.fab.rstoLocal.toNat, 0)]
  | .nlkPstat =>
    if w = 0 then pstatWord s k
    else fieldWord [((getPort s k).replRecv.toNat, 32), ((getPort s k).replSent.toNat, 0)]
  | .hifRing => readRing s k w
  | .brgStatus => readStart s w
  | .brgInv => readInv s w
  | .brgSeat => readSeat s k w
  | .chkCtrl => readCheck s w
  | .chkSuspect => if w = 0 then fieldWord [(s.chk.suspId.toNat, 48)] else fieldWord [(s.chk.suspRes.toNat, 0)]
  | .chkMargin => fieldWord [(s.chk.maxTrim.toNat, 4), (s.chk.maxClock.toNat, 2)]
  | .chkDet => readDet s k w
  | .recReq => readReq s w
  | .recStatus => readRec s k w
  | .recSpare => readSpare s k
  | .rptRoute => fieldWord [(s.rpt.flush.toNat, 16), (s.rpt.perGram.toNat, 8), (s.rpt.route.toNat, 0)]
  | .rptCollect => readCollect s w
  | .rptStatus => readReports s w
  | .rptRdidx => fieldWord [(s.rpt.rdIdx.toNat, 32), (s.rpt.rdRes.toNat, 0)]
  | .rptRddata => s.rpt.rdData.getD w 0
  | .exmCtrl => fieldWord [(ofBool s.exm.skip, 0)]
  | .exmStatus => s.exm.status.getD w 0
  | .tstLcs => readLife s
  | .tstFdmclr => if w = 0 then fieldWord [(s.exm.fdmConf.toNat, 0)] else fieldWord [(s.exm.fdmCount.toNat, 48), (s.exm.fdmRes.toNat, 0)]
  | .secCmd =>
    if w = 0 then s.sec.counter
    else fieldWord [(s.sec.epoch.toNat, 32), (s.sec.result.toNat, 24), (s.sec.detail.toNat, 16), (s.sec.opcode.toNat, 8), (s.sec.tagFails.toNat, 0)]
  | .secAttest => if w = 0 then s.sec.attest else BitVec.ofNat 64 (s.sec.nonce.toNat / 2 ^ (64 * (w - 1)))
  | .fwLoad => s.sec.fwReq
  | .fwStatus => readFirmware s w
  | .mgtCfg => readMgt s w
  | .mgtSmb => fieldWord [(ofBool s.sbd.pecReq, 8), (s.sbd.target.toNat, 0)]
  | .mgtAlert => if w = 0 then fieldWord [((alertCauses s).toNat, 0)] else fieldWord [(s.sbd.mask.toNat, 0)]
  | .matFeedmap => if w = 0 then (getM s (mcoreSite k)).map0 else (getM s (mcoreSite k)).map1
  | .hbmTbl =>
    let d := tget tblDesc0 (getTile s (k / 64)).tables (k % 64)
    if w = 0 then d.w0 else d.w1

/-! ## Whether a register is served (R900, R901) -/

/-- The registers that the boot ROM serves (R900). -/
def bootServed (reg : Reg) : Bool :=
  [Reg.modId, .clkTport, .prcWakesrc, .nlkPstat, .brgStatus, .tstLcs, .fwLoad, .fwStatus].contains reg

/-- Whether an instance of a register can be reached. -/
def served (s : State) (reg : Reg) (k : Nat) : Bool :=
  (s.sec.fwRunning.isSome || bootServed reg) &&
    match reg with
    | .hbmTbl => !isFenced s (tileSite (k / 64))
    | .matFeedmap => !isFenced s (mcoreSite k)
    | _ => true

/-- A read of one word (R872, R898): its status and the word. -/
def readAt (s : State) (off : Nat) : Nat × Word :=
  if off % 8 ≠ 0 ∨ (blockAt off).isNone then (1, 0)
  else match regAt off with
    | none => (0, 0)
    | some x => if served s x.row.reg x.inst then (0, readReg s x.row.reg x.inst x.word) else (5, 0)

/-- A READ of n words (R895): its status and the words. -/
def readSpan (s : State) (off n : Nat) : Nat × List Word :=
  match blockAt off with
  | none => (1, [])
  | some b =>
    if off % 8 ≠ 0 then (1, [])
    else if b.2 < off + 8 * n - 8 then (2, [])
    else
      let l := (upFrom 0 n).map fun i => readAt s (off + 8 * i)
      if l.all fun x => x.1 == 0 then (0, l.map (·.2)) else (5, [])

/-! ## Writes -/

/-- A mask of bit ranges. -/
def ranges (l : List (Nat × Nat)) : Nat := l.foldl (fun a r => a ||| (2 ^ (r.1 + 1) - 2 ^ r.2)) 0

/-- The reserved bits of a word that can be written (R15), from the field maps. -/
def reservedBits (reg : Reg) (w : Nat) : Nat :=
  match reg, w with
  | .clkTport, 0 => ranges [(63, 6)]
  | .clkTport, _ => ranges [(31, 12), (7, 5)]
  | .prcWakecfg, _ => ranges [(63, 9)]
  | .prcT0, _ => ranges [(63, 32), (30, 16)]
  | .pwrState, _ => ranges [(63, 8), (1, 0)]
  | .pwrCap, _ => ranges [(63, 48)]
  | .fabRsto, _ => ranges [(63, 16)]
  | .hifRing, 0 => ranges [(52, 36)]
  | .hifRing, 1 => ranges [(31, 13), (7, 5)]
  | .chkCtrl, 0 => ranges [(63, 8), (0, 0)]
  | .chkSuspect, 0 => ranges [(62, 62), (47, 0)]
  | .chkSuspect, _ => ranges [(63, 2)]
  | .chkMargin, _ => ranges [(63, 8), (1, 0)]
  | .recReq, 0 => ranges [(45, 0)]
  | .recReq, 1 => ranges [(31, 0)]
  | .recReq, _ => ranges [(23, 0)]
  | .rptRoute, _ => ranges [(63, 24), (7, 2)]
  | .rptCollect, 0 => ranges [(61, 54), (15, 0)]
  | .rptRdidx, _ => ranges [(31, 2)]
  | .exmCtrl, _ => ranges [(63, 1)]
  | .tstFdmclr, 0 => ranges [(62, 32)]
  | .tstFdmclr, _ => ranges [(47, 2)]
  | .secAttest, 0 => ranges [(49, 36)]
  | .fwLoad, _ => ranges [(62, 62), (52, 50)]
  | .mgtCfg, 0 => ranges [(59, 56)]
  | .mgtCfg, 5 => ranges [(47, 0)]
  | .mgtCfg, 6 => ranges [(60, 32)]
  | .mgtSmb, _ => ranges [(63, 9), (7, 7)]
  | .mgtAlert, 0 => ranges [(63, 8)]
  | .mgtAlert, _ => ranges [(63, 8), (0, 0)]
  | .hbmTbl, 0 => ranges [(47, 26)]
  | .hbmTbl, _ => ranges [(63, 27)]
  | _, _ => 0

/-- Whether a two-wire address may be used (R638, R874). -/
def wireAddrOk (a : Nat) : Bool := decide (8 ≤ a ∧ a < 0x78)

/-- A write of CLK_TPORT (R588, R591, R606). -/
def writeTport (s : State) (w v : Nat) : Option State :=
  if w = 0 then
    if !bit v 5 then some (withdrawPort s)
    else if isUp s (bits v 4 0) then some (choosePort s (bits v 4 0))
    else none
  else some (if bit v 11 then { s with clk := { s.clk with uncertain := false } } else s)

/-- A write of PRC_WAKECFG (R638). -/
def writeWake (s : State) (v : Nat) : Option State :=
  if bits v 8 7 = 0 ∨ !wireAddrOk (bits v 6 0) then none
  else some { s with pwr := { s.pwr with wakeEn := BitVec.ofNat 2 (bits v 8 7), wakeAddr := BitVec.ofNat 7 (bits v 6 0) } }

/-- A write of PRC_T0 (R653). -/
def writeT0 (s : State) (v : Nat) : Option State :=
  if bits v 15 0 < 100 ∨ 10000 < bits v 15 0 then none
  else some { s with pwr := { s.pwr with t0Period := BitVec.ofNat 16 (bits v 15 0) } }

/-- A write of PWR_STATE (R642). -/
def writePower (s : State) (v : Nat) : Option State :=
  let q := BitVec.ofNat 2 (bits v 7 6)
  if q = 0 then some s else if mayRequest s q then some { s with pwr := { s.pwr with request := q } } else none

/-- A write of FAB_RSTO (R381). -/
def writeRsto (s : State) (v : Nat) : Option State :=
  let r := bits v 15 8
  let l := bits v 7 0
  if r < 4 ∨ 128 < r ∨ l < 2 ∨ 64 < l then none
  else some { s with fab := { s.fab with rstoRemote := BitVec.ofNat 8 r, rstoLocal := BitVec.ofNat 8 l } }

/-- A write of REC_REQ (R769, R770): word 1 names the request, word 0 makes it. -/
def writeReq (s : State) (w v : Nat) : Option State :=
  if w = 1 then some { s with rcv := { s.rcv with reqId := BitVec.ofNat 32 (bits v 63 32) } }
  else if w = 2 then some s
  else
    let act := BitVec.ofNat 3 (bits v 62 60)
    if !bit v 63 then some { s with rcv := { s.rcv with reqAct := act, reqUnit := BitVec.ofNat 14 (bits v 59 46) } }
    else if s.brg.phase ≠ 6 ∨ s.clk.gated then none
    else if act = 1 then some (takeReq s 1 (BitVec.ofNat 64 v) s.rcv.reqId fenceReq)
    else if act = 2 then some (takeReq s 2 (BitVec.ofNat 64 v) s.rcv.reqId reseatReq)
    else none

/-- A write of SEC_ATTEST (R860): a nonce word, or the request that ATTEST_REPORT or IDENTITY_CERTIFICATE then meets. -/
def writeAttest (s : State) (w v : Nat) : Option State :=
  if w = 0 then
    if bit v 63 ∧ (bits v 61 53 < 8 ∨ 479 < bits v 61 53 ∨ bits v 8 0 ≠ 0) then none
    else
      let keep := bits s.sec.attest.toNat 52 50
      some { s with sec := { s.sec with attest := fieldWord [(bits v 63 53, 53), (keep, 50), (bits v 35 0, 0)] } }
  else
    let n := s.sec.nonce.toNat
    let old := bits n (64 * (w - 1) + 63) (64 * (w - 1))
    some { s with sec := { s.sec with nonce := BitVec.ofNat 256 (n - old * 2 ^ (64 * (w - 1)) + v * 2 ^ (64 * (w - 1))) } }

/-- A write of FW_LOAD (R858): the request that FW_LOAD then meets with the image of the host window. -/
def writeFwLoad (s : State) (v : Nat) : Option State :=
  let rows := bits v 49 36
  if bit s.sec.fwReq.toNat 63 then none
  else if bit v 63 ∧ (bits v 61 53 < 8 ∨ 479 < bits v 61 53 ∨ rows < 9 ∨ 12288 < rows ∨ bits v 8 0 ≠ 0) then none
  else some { s with sec := { s.sec with fwReq := BitVec.ofNat 64 v } }

/-- A write of MGT_CFG (R879): while enable is 1, only the enable bit changes. -/
def writeMgt (s : State) (w v : Nat) : Option State :=
  let w0 := (s.sbd.cfg.getD 0 0).toNat
  let put := fun (k : Nat) (x : Nat) => { s with sbd := { s.sbd with cfg := lset s.sbd.cfg k (BitVec.ofNat 64 x) } }
  if w = 6 then some s
  else if bit w0 63 then some (if w = 0 then put 0 (bits w0 62 48 * 2 ^ 48 + bits v 63 63 * 2 ^ 63) else s)
  else if w = 0 then some (put 0 (bits v 63 48 * 2 ^ 48))
  else some (put w v)

/-- A write of MGT_SMB (R874). -/
def writeSmb (s : State) (v : Nat) : Option State :=
  if !wireAddrOk (bits v 6 0) then none
  else some { s with sbd := { s.sbd with pecReq := bit v 8, target := BitVec.ofNat 7 (bits v 6 0) } }

/-- The causes of MGT_ALERT that are still present (R878): a warm sensor (R882), a stopped placement, a port fenced or on one
lane, bound void. -/
def presentCauses (s : State) : BitVec 8 :=
  let warm := s.rpt.temps.any (fun e => decide (800 ≤ e.2)) || s.rpt.stackTemps.any (fun e => decide (760 ≤ e.2))
    || decide (800 ≤ s.rpt.procTemp)
  let stopped := s.plcs.any fun e => e.2.state == .stopped
  let port := s.ports.any fun e => e.2.state == .fenced || (e.2.state == .up && (e.2.lanes == 1 || e.2.lanes == 2))
  BitVec.ofNat 8 (fields [(ofBool warm, 1), (ofBool stopped, 3), (ofBool port, 4), (ofBool s.chk.void, 6)])

/-- A write of MGT_ALERT (R878, R899). -/
def writeAlert (s : State) (w v : Nat) : Option State :=
  if w = 0 then
    let clear := BitVec.ofNat 8 (bits v 7 0) &&& 0xFA
    some { s with sbd := { s.sbd with cause := (s.sbd.cause &&& ~~~clear) ||| (presentCauses s &&& clear) } }
  else some { s with sbd := { s.sbd with mask := BitVec.ofNat 8 (bits v 7 0) } }

/-- A write of HBM_TBL (R469): refused where word 0 fails a check. -/
def writeTable (s : State) (k w v : Nat) : Option State :=
  let hold := (tget tblDesc0 (getTile s (k / 64)).tables (k % 64)).hold.toNat
  if w = 0 ∧ bit v 63 ∧ !tableOk s v hold then none
  else some (tableWrite s (k / 64) (k % 64) (w == 1) (BitVec.ofNat 64 v))

/-- The registers that RETIRED keeps (R902). -/
def retiredKeeps (reg : Reg) : Bool := [Reg.hifRing, .hbmTbl, .recReq, .chkSuspect].contains reg

/-- A write of word w of instance k of a register by its own rules: none where it is refused. -/
def writeWord1 (s : State) (reg : Reg) (k w v : Nat) : Option State :=
  if v &&& reservedBits reg w ≠ 0 ∨ (retiredKeeps reg ∧ s.fuses.life = 4) then none
  else match reg with
    | .clkTport => writeTport s w v
    | .prcWakecfg => writeWake s v
    | .prcT0 => writeT0 s v
    | .pwrState => writePower s v
    | .pwrCap => writeCap s v
    | .fabRsto => writeRsto s v
    | .hifRing => ringWrite1 s k w v
    | .chkCtrl => some (if w = 0 then writeCtrl s v else s)
    | .chkSuspect => some (if w = 0 then nominate s v else s)
    | .chkMargin => writeMargin s v
    | .recReq => writeReq s w v
    | .rptRoute => writeRoute s v
    | .rptCollect => writeCollect s w v
    | .rptRdidx => some (readIndex s v)
    | .exmCtrl => some { s with exm := { s.exm with skip := bit v 0 } }
    | .tstFdmclr => some (if w = 0 then clearFdm s v else s)
    | .secAttest => writeAttest s w v
    | .fwLoad => writeFwLoad s v
    | .mgtCfg => writeMgt s w v
    | .mgtSmb => writeSmb s v
    | .mgtAlert => writeAlert s w v
    | .hbmTbl => writeTable s k w v
    | _ => none

/-- What an address of IPv4 reserves (R799, R879), in the words that one write covers: word 1 the upper half and word 2 whole, and so
on for the gateway. -/
def addressOk (v6 : Bool) (x : Nat × Nat) : Bool := v6 || x.1 == 0 || decide (4 < x.1) || (if x.1 % 2 = 1 then x.2 / 2 ^ 32 else x.2) == 0

/-- Several words of one register as one operation, the highest first (R896, R897). -/
def writeWords (s : State) (reg : Reg) (k : Nat) (l : List (Nat × Nat)) : Option State :=
  match l.foldr (fun x acc => acc.bind fun s => writeWord1 s reg k x.1 x.2) (some s) with
  | none => none
  | some s' =>
    match reg with
    | .rptCollect => if l.all (addressOk (bit s'.rpt.collect0.toNat 62)) then some s' else none
    | .mgtCfg => if l.all (addressOk (bit (s'.sbd.cfg.getD 0 0).toNat 61)) then some s' else none
    | _ => some s'

/-- A WRITE on a path (R895): its status, and the state after it. -/
def writeAt (s : State) (wire : Bool) (off : Nat) (vals : List Word) : Nat × State :=
  if off % 8 ≠ 0 ∨ (blockAt off).isNone then (1, s)
  else match regAt off with
    | none => (3, s)
    | some x =>
      let l := vals.zipIdx.map fun p => (x.word + p.2, p.1.toNat)
      if x.row.words < x.word + vals.length then (2, s)
      else if !served s x.row.reg x.inst then (5, s)
      else if !(if wire then x.row.wire else x.row.link) then (3, s)
      else match writeWords s x.row.reg x.inst l with
        | some s' => (0, s')
        | none => (4, s)

/-! ## CONTROL packets (R892 to R899) -/

/-- The words that a body row carries (R893). -/
def bodyWords (rows : List PRow) (n : Nat) : List Word :=
  let r := match rows with | x :: _ => x.data | [] => 0
  (upFrom 0 n).map fun i => BitVec.ofNat 64 (bits r.toNat (64 * i + 63) (64 * i))

/-- A CONTROL packet whose turn has come (R893, R895): requests are answered with one REPLY each; a write without a whole body row is
refused. -/
def applyControl (port : Port) (s : State) (c : Ctx) (k : Packet) : State × Ctx × Option Nat :=
  let op := bits k.op.toNat 127 124
  let n := bits k.op.toNat 123 118 + 1
  let off := bits k.op.toNat 117 86
  let tag := BitVec.ofNat 16 (bits k.op.toNat 77 62)
  let c := ctxAfter c k
  if op = 1 then
    let (st, ws) := readSpan s off n
    (putOut s (.reply port tag st ws), c, none)
  else if op = 2 then
    let (st, s) := if k.rows.length = 1 ∧ k.srcPois = 0 then writeAt s false off (bodyWords k.rows n) else (4, s)
    (putOut s (.reply port tag st []), c, none)
  else (s, c, none)

/-- The i-th packet in flight is a CONTROL packet at a ring engine: it is sequenced and passed to the proctor (R366, R892). -/
def takeControl (s : State) (i : Nat) (d : Damage) (write : Bool) : State :=
  match takePacket s i with
  | none => s
  | some (k, s') =>
    match k.toPort with
    | none => s
    | some n =>
      if k.ptype = 9 ∧ (bits k.op.toNat 127 124 == 2) = write then
        arrive s' (12800 + n.val) k d true (fun s c k => applyControl n s c k)
      else s

/-! ## The two-wire bus (R869 to R873) -/

/-- Whether a command at the target address passes the PEC rule (R871). -/
def pecOk (s : State) : Pec → Bool
  | .good => true
  | .bad => false
  | .absent => !s.sbd.pecReq

/-- One command of the bus, answered while the proctor runs (R868, R869). -/
def onBus (s : State) (pec : Pec) (go : State → State) : State :=
  if !powered s then s else if pecOk s pec then go s else putOut s .busNak

def busStatus (s : State) (st : Nat) : State := { s with sbd := { s.sbd with status := BitVec.ofNat 8 st } }
def advancePointer (s : State) : State := { s with sbd := { s.sbd with pointer := s.sbd.pointer + 8 } }

/-- Command 0x01 (R872). -/
def setPointerTo (s : State) (off : BitVec 32) : State :=
  if off.toNat % 8 ≠ 0 ∨ (blockAt off.toNat).isNone then putOut (busStatus s 1) .busNak
  else busStatus { s with sbd := { s.sbd with pointer := off } } 0

/-- Command 0x02 (R872). -/
def readPointed (s : State) : State :=
  let r := readAt s s.sbd.pointer.toNat
  advancePointer (putOut (busStatus s r.1) (.bus 8 r.2))

/-- Command 0x03 (R872, R873). -/
def writePointed (s : State) (v : Word) : State :=
  let r := writeAt s true s.sbd.pointer.toNat [v]
  if r.1 = 0 then advancePointer (busStatus r.2 0) else putOut (busStatus s r.1) .busNak

/-! ## The management port (R880, R881) -/

/-- An inbound frame that is not served (R879, R880). -/
def dropFrame (s : State) : State := { s with sbd := { s.sbd with dropped := sat32 s.sbd.dropped 1 } }

/-- Frames for the module's own address, and all others (R880). -/
def frame (s : State) (f : MgtFrame) : State :=
  if !mgtUp s then s
  else match f with
    | .arp true => putOut s (.mgtReply f)
    | .ndp true => putOut s (.mgtReply f)
    | .echo true => putOut s (.mgtReply f)
    | _ => dropFrame s

/-- The words that the read service returns for one item, and its status (R881). -/
def serviceItem (s : State) (kind first i : Nat) : Nat × List Word :=
  if kind = 1 then let r := readAt s ((first + 8 * i) % 2 ^ 64); (r.1, [r.2])
  else match heldEntry s (first + i) with
    | some w => (0, w)
    | none => (6, List.replicate 8 0)

/-- A request of the read service (R881): bytes 0 to 15 in bits 127 to 0; at most one answer in 100 µs, 10,000 T ticks. -/
def serveRead (s : State) (q : Nat) : State :=
  let kind := bits q 95 88
  let n := bits q 87 80
  let rested := match s.sbd.lastRead with | some t => decide (10000 ≤ (s.clk.master - t).toNat) | none => true
  if !mgtUp s then s
  else if bits (s.sbd.cfg.getD 5 0).toNat 63 48 = 0 then dropFrame s
  else if bits q 127 96 ≠ 0x53565251 ∨ (kind ≠ 1 ∧ kind ≠ 2) ∨ bits q 79 64 ≠ 0 ∨ n = 0 ∨ 16 < n then dropFrame s
  else if !rested then dropFrame s
  else
    let items := (upFrom 0 n).map fun i => serviceItem s kind (bits q 63 0) i
    let bad := items.zipIdx.find? fun x => x.1.1 != 0
    let s := { s with sbd := { s.sbd with lastRead := some s.clk.master } }
    putOut s (.service (bad.elim 0 (·.1.1)) (bad.elim 0 (·.2)) (items.flatMap (·.2)))

/-! ## Commands -/

/-- R893: A host CONTROL READ is checked and answered with a REPLY carrying register words. -/
def execControlRead (i : Nat) (d : Damage) (s : State) : Answer := .next (takeControl s i d false)

/-- R893: A host CONTROL WRITE is checked, applied to a register and answered with a REPLY. -/
def execControlWrite (i : Nat) (d : Damage) (s : State) : Answer := .next (takeControl s i d true)

/-- A host's write by the link, outside a CONTROL packet of its own (R897). -/
def hostWrite (s : State) (off : Nat) (vals : List Word) : State := if powered s then (writeAt s false off vals).2 else s

/-- R897: A write to a register without behaviour of its own updates its writable fields or is refused. -/
def execRegisterWrite (offset : BitVec 32) (values : List Word) (s : State) : Answer := .next (hostWrite s offset.toNat values)

/-- R543: A write to HIF_RING sets up, enables or disables a ring. -/
def execHifRing (r : Fin 19) (word : BitVec 2) (v : Word) (s : State) : Answer :=
  .next (hostWrite s (0x5000 + 0x20 * r.val + 8 * word.toNat) [v])

/-- R469: A write to a table descriptor holds word 1 or installs both words after checks. -/
def execHbmTbl (t : Tile) (d : Fin 64) (word : Bool) (v : Word) (s : State) : Answer :=
  .next (hostWrite s (0x100000 + 1024 * t.val + 16 * d.val + 8 * ofBool word) [v])

/-- R696: A write to CHK_CTRL enables or disables detectors and sets bound void. -/
def execChkCtrl (v : Word) (s : State) : Answer := .next (hostWrite s 0x20000 [v])

/-- R709: A host nomination adds 4 fault points to the named unit. -/
def execChkSuspect (v : Word) (s : State) : Answer := .next (hostWrite s 0x20010 [v])

/-- R718: A write to PWR_CAP lowers the cap within 100 µs or is refused as a raise. -/
def execPwrCap (v : Word) (s : State) : Answer := .next (hostWrite s 0x2028 [v])

/-- A request written with its ID into REC_REQ (R769). -/
def recReq (act : Nat) (v : Word) (request : BitVec 32) (s : State) : State :=
  if bits v.toNat 63 60 = 8 + act then hostWrite s 0x24000 [v, BitVec.ofNat 64 (request.toNat * 2 ^ 32)] else s

/-- R771: A REC_REQ fence request fences a unit, recovering its placement. -/
def execFenceRequest (v : Word) (request : BitVec 32) (s : State) : Answer := .next (recReq 1 v request s)

/-- R771: A REC_REQ reseat request moves a unit's logical site onto a spare. -/
def execReseat (v : Word) (request : BitVec 32) (s : State) : Answer := .next (recReq 2 v request s)

/-- R793: A write to RPT_ROUTE changes report routes or is refused whole. -/
def execRptRoute (v : Word) (s : State) : Answer := .next (hostWrite s 0x28000 [v])

/-- R802: A write to RPT_RDIDX copies a persistent entry into RPT_RDDATA. -/
def execRptRdidx (v : Word) (s : State) : Answer := .next (hostWrite s 0x28038 [v])

/-- R824: A write to TST_FDMCLR clears the field defect map in RETURNED. -/
def execTstFdmclr (v : Word) (s : State) : Answer := .next (hostWrite s 0x2C0C0 [v])

/-- R871: The two-wire bus sets the register pointer. -/
def execSetPointer (offset : BitVec 32) (pec : Pec) (s : State) : Answer := .next (onBus s pec fun s => setPointerTo s offset)

/-- R871: The two-wire bus reads the word at the pointer. -/
def execReadWord (pec : Pec) (s : State) : Answer := .next (onBus s pec readPointed)

/-- R871: The two-wire bus writes the word at the pointer. -/
def execWriteWord (v : Word) (pec : Pec) (s : State) : Answer := .next (onBus s pec fun s => writePointed s v)

/-- R871: The two-wire bus reads the wake source. -/
def execReadWakeSource (s : State) : Answer :=
  .next (if powered s then putOut s (.bus 1 (BitVec.ofNat 64 ((readWakesrc s 0).toNat % 256))) else s)

/-- R871: The two-wire bus reads the status of its last command. -/
def execReadStatus (s : State) : Answer := .next (if powered s then putOut s (.bus 1 (s.sbd.status.setWidth 64)) else s)

/-- R880: The management port answers or drops an inbound frame. -/
def execManagementFrame (f : MgtFrame) (s : State) : Answer := .next (frame s f)

/-- R881: A UDP read service request returns register words or report entries. -/
def execReadService (request : BitVec 128) (s : State) : Answer := .next (serveRead s request.toNat)

end Sys2Proof.Machine
end

