-- ==== Sys2Proof/Machine/Scalar.lean ====
section
/-! DEFINITION. The commands of integer slots (R114 to R116) and row slots (R117), and NOP (R110). -/

namespace Sys2Proof.Machine

/-- R115: Integer slot writes A + B modulo 2^64 with latency 1. -/
def execAdd (a : Issue) (w : BitVec 56) (s : State) : Answer :=
  .next (stage s a 0x01 w.toNat)

/-- R115: Integer slot writes A − B modulo 2^64 with latency 1. -/
def execSub (a : Issue) (w : BitVec 56) (s : State) : Answer :=
  .next (stage s a 0x02 w.toNat)

/-- R115: Integer slot writes the bitwise AND of A and B. -/
def execAnd (a : Issue) (w : BitVec 56) (s : State) : Answer :=
  .next (stage s a 0x03 w.toNat)

/-- R115: Integer slot writes the bitwise OR of A and B. -/
def execOr (a : Issue) (w : BitVec 56) (s : State) : Answer :=
  .next (stage s a 0x04 w.toNat)

/-- R115: Integer slot writes the bitwise XOR of A and B. -/
def execXor (a : Issue) (w : BitVec 56) (s : State) : Answer :=
  .next (stage s a 0x05 w.toNat)

/-- R115: Integer slot writes A shifted left by B mod 64. -/
def execShl (a : Issue) (w : BitVec 56) (s : State) : Answer :=
  .next (stage s a 0x06 w.toNat)

/-- R115: Integer slot writes A shifted right logically by B mod 64. -/
def execShr (a : Issue) (w : BitVec 56) (s : State) : Answer :=
  .next (stage s a 0x07 w.toNat)

/-- R115: Integer slot writes A shifted right arithmetically by B mod 64. -/
def execSar (a : Issue) (w : BitVec 56) (s : State) : Answer :=
  .next (stage s a 0x08 w.toNat)

/-- R115: Integer slot writes 1 if A equals B, else 0. -/
def execCmpeq (a : Issue) (w : BitVec 56) (s : State) : Answer :=
  .next (stage s a 0x09 w.toNat)

/-- R115: Integer slot writes 1 if A is below B as signed values, else 0. -/
def execCmplt (a : Issue) (w : BitVec 56) (s : State) : Answer :=
  .next (stage s a 0x0A w.toNat)

/-- R115: Integer slot writes 1 if A is below B as unsigned values, else 0. -/
def execCmpltu (a : Issue) (w : BitVec 56) (s : State) : Answer :=
  .next (stage s a 0x0B w.toNat)

/-- R115: Integer slot writes A if the destination's value at issue is non-zero, else B. -/
def execSel (a : Issue) (w : BitVec 56) (s : State) : Answer :=
  .next (stage s a 0x0C w.toNat)

/-- R115: Integer slot writes the signed minimum of A and B. -/
def execMin (a : Issue) (w : BitVec 56) (s : State) : Answer :=
  .next (stage s a 0x0D w.toNat)

/-- R115: Integer slot writes the signed maximum of A and B. -/
def execMax (a : Issue) (w : BitVec 56) (s : State) : Answer :=
  .next (stage s a 0x0E w.toNat)

/-- R115: Integer slot writes bits 63:0 of A × B with latency 3. -/
def execMul (a : Issue) (w : BitVec 56) (s : State) : Answer :=
  .next (stage s a 0x10 w.toNat)

/-- R115: Integer slot writes bits 127:64 of the unsigned product A × B with latency 3. -/
def execMulhu (a : Issue) (w : BitVec 56) (s : State) : Answer :=
  .next (stage s a 0x11 w.toNat)

/-- R116: Integer slot writes mix(A XOR B) with latency 2. -/
def execHash (a : Issue) (w : BitVec 56) (s : State) : Answer :=
  .next (stage s a 0x12 w.toNat)

/-- R115: Integer slot writes the sign-extended immediate. -/
def execMovi (a : Issue) (w : BitVec 56) (s : State) : Answer :=
  .next (stage s a 0x13 w.toNat)

/-- R115: Integer slot writes A shifted left by 24, ORed with the zero-extended immediate. -/
def execOrsh (a : Issue) (w : BitVec 56) (s : State) : Answer :=
  .next (stage s a 0x14 w.toNat)

/-- R115: Integer slot reads an arrival counter, zero-extended, into a register. -/
def execRdc (a : Issue) (w : BitVec 56) (s : State) : Answer :=
  .next (stage s a 0x15 w.toNat)

/-- R117: Row slot loads a scratchpad row into a window. -/
def execLdrow (a : Issue) (w : BitVec 56) (s : State) : Answer :=
  .next (stage s a 0x40 w.toNat)

/-- R117: Row slot stores a window into a scratchpad row, visible 3 K-cycles later. -/
def execStrow (a : Issue) (w : BitVec 56) (s : State) : Answer :=
  .next (stage s a 0x41 w.toNat)

/-- R117: Row slot clears a window to zero. -/
def execClrw (a : Issue) (w : BitVec 56) (s : State) : Answer :=
  .next (stage s a 0x42 w.toNat)

/-- R110: A bundle whose slots all hold opcode 0x00 issues, updating the signature and the bundle address, and raises IADDR at the last address. -/
def execNop (u : Site) (s : State) : Answer :=
  .next (if canIssue s u.val then issueBundle s u.val (getCore s u.val).forming else s)

end Sys2Proof.Machine
end

