-- ==== Sys2Proof/Machine/Tick.lean ====
section
/-! DEFINITION. A T tick (R42, R579, R603, R606): module time, and what the 16 K-cycles of the tick add to the counters of waits,
stalls and lowered clocks. -/

namespace Sys2Proof.Machine

/-- Regions in which a placement has a stage with work scheduled (R72). -/
def busyIn (s : State) (p r : Nat) : Bool :=
  (coresOf s p).any fun u => regionOf u == r && (getCore s u).run == .running

/-- The K-cycles of one tick that a lowered region suppresses (R37): 4 or 8 of every 32. Its running cores miss them (an M-core three A-cycles
of every four), and run so much later; a placement with work there counts them as silt (R72). -/
def lowerRegion (s : State) (r : Nat) : State :=
  let step := clockStep s r
  let was := tget 0 s.chk.lowered r
  let s := s.plcs.foldl (fun s e =>
    if step = 0 then (if tget 0 e.2.lowK r = 0 then s else modPlc s e.1 fun x => { x with lowK := tset 0 x.lowK r 0 })
    else if busyIn s e.1 r then
      let s := ((coresOf s e.1).filter fun u => regionOf u == r && (getCore s u).run == .running).foldl (fun s u =>
        modCore s u fun c => { c with lag := c.lag + 2 * step, lost := c.lost + 2 * step }) s
      addLowered s e.1 r (2 * step) (tget 0 e.2.lowK r == 0 || decide (was < step))
    else s) s
  { s with chk := { s.chk with lowered := tset 0 s.chk.lowered r step } }

/-- Whether an output stage is held by host-link credits (R73): a ring engine refuses its rows for want of room, or the port of its placement's
output has packets that wait for credits. -/
def outputHeld (s : State) (p : Nat) : Bool :=
  let x := getPlc s p
  inFlight x != 0 && (x.held || !(getPort s (getRing s p).port.toNat).txq.isEmpty)

/-- A placement's watchdog, in a drain too (R314, R315, R321), and its hold cycles (R73). -/
def tickPlacement (s : State) (p : Nat) : State :=
  let x := getPlc s p
  if x.state ≠ .running ∧ x.drain.isNone then s
  else
    let held := outputHeld s p
    let s := if watchdogCounts s p && !held then modPlc s p fun x => { x with watchdog := min 65536 (x.watchdog + 16) } else s
    if held then addHold s p 16 else s

/-- A receive channel whose rows in use fill its ring (R438). -/
def tickChan (x : Chan) : Chan := if chRole x = 2 ∧ x.used = chRows x then { x with cStalled := sat32 x.cStalled 16 } else x

/-- A core: a held bundle's cycles pass (R107), and its channels count stalls. -/
def tickCore (now : Nat) (c : Core) : Core :=
  { c with
    cycle := if c.run = .running ∧ c.held.isSome then max c.cycle (cyclesOf c.profile (kPast c now)) else c.cycle
    chans := tmap chan0 (fun _ x => tickChan x) c.chans }
/-- A bundle that is still held has been tested in vain up to the present cycle (R125). -/
def tickHeld (s : State) (u : Nat) : State :=
  match (getCore s u).held with
  | some h => if stillHeld s u h then modCore s u fun c => { c with held := some { h with tested := max h.tested c.cycle } } else s
  | none => s
/-- One frame of the segments (R286, R291): rows leave the send buffers in their reserved cycles, and engines that wait for room go on. -/
def tickSegs (s : State) : State :=
  let full := s.segs.filterMap fun g => match g.src with | .port u _ => if g.buf.isEmpty then none else some u.val | _ => none
  full.foldl (fun s u => pump s u) { s with segs := s.segs.map segLeave }

/-- An outbound engine that waits for a flow (R362, R394). -/
def tickEndpoint (e : Endpoint) : Endpoint :=
  match e.outq with
  | r :: _ =>
    if r.port.isNone ∧ (findFlow e r.dst).isNone ∧ 64 ≤ e.flows.length then { e with cnt := tmod 0 e.cnt 7 (sat32 · 16) } else e
  | [] => e

/-- The 16 K-cycles of a tick, while the root PLL runs. -/
def tickCycles (s : State) : State :=
  let s := (upFrom 0 32).foldl lowerRegion s
  let s := s.plcs.foldl (fun s e => tickPlacement s e.1) s
  let s := { s with cores := tmap core0 (fun u c => tickCore (timeAt s u) c) s.cores
                    fab := { s.fab with eps := tmap endpoint0 (fun _ e => tickEndpoint e) s.fab.eps } }
  let s := (s.mcores.filter fun e => !e.2.reads.isEmpty).foldl (fun s e => settleM s e.1) s
  let s := tickSegs s
  let s := (s.ports.filter fun e => !e.2.block.isEmpty).foldl (fun s e => blockPass s e.1) s
  let s := (s.cores.filter fun e => e.2.held.isSome).foldl (fun s e => tickHeld s e.1) s
  settle s

/-- The regions of routers that have met an uncorrectable error are fenced (R47, R48). -/
def fenceRouters (s : State) : State :=
  s.fab.routersUe.foldl (fun s u => removeRegion s (regionOf u) 1) { s with fab := { s.fab with routersUe := [] } }

/-- One T tick: the master count advances on the reference or on the FIO (R603, R606), and every die's copy with it. -/
def tick (s : State) : State :=
  if !powered s then s
  else
    let s := { s with clk := { s.clk with master := s.clk.master + 1 } }
    if s.clk.gated then s else tickCycles (fenceRouters s)

/-- R603: At every T tick each die's copy of module time advances by 1, and while the root PLL is gated the master count advances on
the FIO. -/
def execTTick (s : State) : Answer := .next (tick s)

end Sys2Proof.Machine
end

