-- ==== Sys2Proof/Machine/Vector.lean ====
section
/-! DEFINITION. The commands of vector ALU, row move, reduction and conversion slots (R142 to R154). -/

namespace Sys2Proof.Machine

/-- R145: Vector ALU writes A + B per element. -/
def execVadd (a : Issue) (w : BitVec 56) (s : State) : Answer :=
  .next (stage s a 0xC0 w.toNat)

/-- R145: Vector ALU writes A − B per element. -/
def execVsub (a : Issue) (w : BitVec 56) (s : State) : Answer :=
  .next (stage s a 0xC1 w.toNat)

/-- R145: Vector ALU writes A × B per element. -/
def execVmul (a : Issue) (w : BitVec 56) (s : State) : Answer :=
  .next (stage s a 0xC2 w.toNat)

/-- R145: Vector ALU writes A × B + C per element with one rounding. -/
def execVfma (a : Issue) (w : BitVec 56) (s : State) : Answer :=
  .next (stage s a 0xC3 w.toNat)

/-- R145: Vector ALU writes the per-element maximum. -/
def execVmax (a : Issue) (w : BitVec 56) (s : State) : Answer :=
  .next (stage s a 0xC4 w.toNat)

/-- R145: Vector ALU writes the per-element minimum. -/
def execVmin (a : Issue) (w : BitVec 56) (s : State) : Answer :=
  .next (stage s a 0xC5 w.toNat)

/-- R145: Vector ALU writes the per-element bitwise AND. -/
def execVand (a : Issue) (w : BitVec 56) (s : State) : Answer :=
  .next (stage s a 0xC6 w.toNat)

/-- R145: Vector ALU writes the per-element bitwise OR. -/
def execVor (a : Issue) (w : BitVec 56) (s : State) : Answer :=
  .next (stage s a 0xC7 w.toNat)

/-- R145: Vector ALU writes the per-element bitwise XOR. -/
def execVxor (a : Issue) (w : BitVec 56) (s : State) : Answer :=
  .next (stage s a 0xC8 w.toNat)

/-- R145: Vector ALU writes all ones where A < B, else 0. -/
def execVcmplt (a : Issue) (w : BitVec 56) (s : State) : Answer :=
  .next (stage s a 0xC9 w.toNat)

/-- R145: Vector ALU writes all ones where A = B, else 0. -/
def execVcmpeq (a : Issue) (w : BitVec 56) (s : State) : Answer :=
  .next (stage s a 0xCA w.toNat)

/-- R145: Vector ALU writes A where C is non-zero, else B. -/
def execVsel (a : Issue) (w : BitVec 56) (s : State) : Answer :=
  .next (stage s a 0xCB w.toNat)

/-- R145: Vector ALU shifts integer elements left. -/
def execVshl (a : Issue) (w : BitVec 56) (s : State) : Answer :=
  .next (stage s a 0xCC w.toNat)

/-- R145: Vector ALU shifts integer elements right arithmetically. -/
def execVshr (a : Issue) (w : BitVec 56) (s : State) : Answer :=
  .next (stage s a 0xCD w.toNat)

/-- R150: Vector row move loads a row into a vector register pair. -/
def execVld (a : Issue) (w : BitVec 56) (s : State) : Answer :=
  .next (stage s a 0xD0 w.toNat)

/-- R150: Vector row move stores a vector register pair into a row. -/
def execVst (a : Issue) (w : BitVec 56) (s : State) : Answer :=
  .next (stage s a 0xD1 w.toNat)

/-- R150: Vector row move broadcasts a general register into every element. -/
def execVbc (a : Issue) (w : BitVec 56) (s : State) : Answer :=
  .next (stage s a 0xD2 w.toNat)

/-- R150: Vector row move extracts one element into a general register. -/
def execVext (a : Issue) (w : BitVec 56) (s : State) : Answer :=
  .next (stage s a 0xD3 w.toNat)

/-- R152: Reduction slot sums a register's elements in the fixed pairwise order. -/
def execVrsum (a : Issue) (w : BitVec 56) (s : State) : Answer :=
  .next (stage s a 0xE0 w.toNat)

/-- R151: Reduction slot writes the maximum element of a register. -/
def execVrmax (a : Issue) (w : BitVec 56) (s : State) : Answer :=
  .next (stage s a 0xE1 w.toNat)

/-- R151: Reduction slot writes the minimum element of a register. -/
def execVrmin (a : Issue) (w : BitVec 56) (s : State) : Answer :=
  .next (stage s a 0xE2 w.toNat)

/-- R153: Conversion slot converts elements between types with optional power-of-two scale. -/
def execVcvt (a : Issue) (w : BitVec 56) (s : State) : Answer :=
  .next (stage s a 0xF0 w.toNat)

/-- R154: Conversion slot computes 2^x in FP32. -/
def execVexp2 (a : Issue) (w : BitVec 56) (s : State) : Answer :=
  .next (stage s a 0xF1 w.toNat)

/-- R154: Conversion slot computes log2 x in FP32. -/
def execVlog2 (a : Issue) (w : BitVec 56) (s : State) : Answer :=
  .next (stage s a 0xF2 w.toNat)

/-- R154: Conversion slot computes 1/x in FP32. -/
def execVrcp (a : Issue) (w : BitVec 56) (s : State) : Answer :=
  .next (stage s a 0xF3 w.toNat)

/-- R154: Conversion slot computes 1/sqrt x in FP32. -/
def execVrsqrt (a : Issue) (w : BitVec 56) (s : State) : Answer :=
  .next (stage s a 0xF4 w.toNat)

end Sys2Proof.Machine
end

