-- ==== Sys2Proof/Machine/Dispatch.lean ====
section
/-! DEFINITION. One arm per command. -/

namespace Sys2Proof.Machine

def exec (i : Instr) (s : State) : Host.Outcome State Fault Refusal :=
  match i with
  | .add a w => Sys2Proof.Machine.execAdd a w s
  | .sub a w => Sys2Proof.Machine.execSub a w s
  | .and_ a w => Sys2Proof.Machine.execAnd a w s
  | .or_ a w => Sys2Proof.Machine.execOr a w s
  | .xor_ a w => Sys2Proof.Machine.execXor a w s
  | .shl a w => Sys2Proof.Machine.execShl a w s
  | .shr a w => Sys2Proof.Machine.execShr a w s
  | .sar a w => Sys2Proof.Machine.execSar a w s
  | .cmpeq a w => Sys2Proof.Machine.execCmpeq a w s
  | .cmplt a w => Sys2Proof.Machine.execCmplt a w s
  | .cmpltu a w => Sys2Proof.Machine.execCmpltu a w s
  | .sel a w => Sys2Proof.Machine.execSel a w s
  | .min_ a w => Sys2Proof.Machine.execMin a w s
  | .max_ a w => Sys2Proof.Machine.execMax a w s
  | .mul a w => Sys2Proof.Machine.execMul a w s
  | .mulhu a w => Sys2Proof.Machine.execMulhu a w s
  | .hash_ a w => Sys2Proof.Machine.execHash a w s
  | .movi a w => Sys2Proof.Machine.execMovi a w s
  | .orsh a w => Sys2Proof.Machine.execOrsh a w s
  | .rdc a w => Sys2Proof.Machine.execRdc a w s
  | .ldrow a w => Sys2Proof.Machine.execLdrow a w s
  | .strow a w => Sys2Proof.Machine.execStrow a w s
  | .clrw a w => Sys2Proof.Machine.execClrw a w s
  | .jmp a w => Sys2Proof.Machine.execJmp a w s
  | .beqz a w => Sys2Proof.Machine.execBeqz a w s
  | .bnez a w => Sys2Proof.Machine.execBnez a w s
  | .bltz a w => Sys2Proof.Machine.execBltz a w s
  | .bgez a w => Sys2Proof.Machine.execBgez a w s
  | .jal a w => Sys2Proof.Machine.execJal a w s
  | .jr a w => Sys2Proof.Machine.execJr a w s
  | .waitc a w => Sys2Proof.Machine.execWaitc a w s
  | .waits a w => Sys2Proof.Machine.execWaits a w s
  | .waitConditionMet u cycle => Sys2Proof.Machine.execWaitConditionMet u cycle s
  | .stallRelease u cycle => Sys2Proof.Machine.execStallRelease u cycle s
  | .send a w => Sys2Proof.Machine.execSend a w s
  | .msgSend a w => Sys2Proof.Machine.execMsgSend a w s
  | .msgRelease a w => Sys2Proof.Machine.execMsgRelease a w s
  | .msgClose a w => Sys2Proof.Machine.execMsgClose a w s
  | .msgResume a w => Sys2Proof.Machine.execMsgResume a w s
  | .dmaHbmToRows a w => Sys2Proof.Machine.execDmaHbmToRows a w s
  | .dmaRowsToHbm a w => Sys2Proof.Machine.execDmaRowsToHbm a w s
  | .spush a w => Sys2Proof.Machine.execSpush a w s
  | .sigchk a w => Sys2Proof.Machine.execSigchk a w s
  | .halt a w => Sys2Proof.Machine.execHalt a w s
  | .vadd a w => Sys2Proof.Machine.execVadd a w s
  | .vsub a w => Sys2Proof.Machine.execVsub a w s
  | .vmul a w => Sys2Proof.Machine.execVmul a w s
  | .vfma a w => Sys2Proof.Machine.execVfma a w s
  | .vmax a w => Sys2Proof.Machine.execVmax a w s
  | .vmin a w => Sys2Proof.Machine.execVmin a w s
  | .vand a w => Sys2Proof.Machine.execVand a w s
  | .vor a w => Sys2Proof.Machine.execVor a w s
  | .vxor a w => Sys2Proof.Machine.execVxor a w s
  | .vcmplt a w => Sys2Proof.Machine.execVcmplt a w s
  | .vcmpeq a w => Sys2Proof.Machine.execVcmpeq a w s
  | .vsel a w => Sys2Proof.Machine.execVsel a w s
  | .vshl a w => Sys2Proof.Machine.execVshl a w s
  | .vshr a w => Sys2Proof.Machine.execVshr a w s
  | .vld a w => Sys2Proof.Machine.execVld a w s
  | .vst a w => Sys2Proof.Machine.execVst a w s
  | .vbc a w => Sys2Proof.Machine.execVbc a w s
  | .vext a w => Sys2Proof.Machine.execVext a w s
  | .vrsum a w => Sys2Proof.Machine.execVrsum a w s
  | .vrmax a w => Sys2Proof.Machine.execVrmax a w s
  | .vrmin a w => Sys2Proof.Machine.execVrmin a w s
  | .vcvt a w => Sys2Proof.Machine.execVcvt a w s
  | .vexp2 a w => Sys2Proof.Machine.execVexp2 a w s
  | .vlog2 a w => Sys2Proof.Machine.execVlog2 a w s
  | .vrcp a w => Sys2Proof.Machine.execVrcp a w s
  | .vrsqrt a w => Sys2Proof.Machine.execVrsqrt a w s
  | .feed a w => Sys2Proof.Machine.execFeed a w s
  | .fstop a w => Sys2Proof.Machine.execFstop a w s
  | .ldw a w => Sys2Proof.Machine.execLdw a w s
  | .swap a w => Sys2Proof.Machine.execSwap a w s
  | .pass a w => Sys2Proof.Machine.execPass a w s
  | .tclr a w => Sys2Proof.Machine.execTclr a w s
  | .mvm a w => Sys2Proof.Machine.execMvm a w s
  | .drain a w => Sys2Proof.Machine.execDrain a w s
  | .chkown a w => Sys2Proof.Machine.execChkown a w s
  | .chkcs a w => Sys2Proof.Machine.execChkcs a w s
  | .feedRowGroupRead u => Sys2Proof.Machine.execFeedRowGroupRead u s
  | .ldwBegin u => Sys2Proof.Machine.execLdwBegin u s
  | .passBegin u => Sys2Proof.Machine.execPassBegin u s
  | .vectorEntry u => Sys2Proof.Machine.execVectorEntry u s
  | .addToTally x => Sys2Proof.Machine.execAddToTally x s
  | .drainVector u => Sys2Proof.Machine.execDrainVector u s
  | .mvmBegin u => Sys2Proof.Machine.execMvmBegin u s
  | .chkcsTest u => Sys2Proof.Machine.execChkcsTest u s
  | .chkownHandover u => Sys2Proof.Machine.execChkownHandover u s
  | .programFault u => Sys2Proof.Machine.execProgramFault u s
  | .scrub u otherWrite => Sys2Proof.Machine.execScrub u otherWrite s
  | .streamRowWrite p seg errs => Sys2Proof.Machine.execStreamRowWrite p seg errs s
  | .tokenRowWrite p seg errs => Sys2Proof.Machine.execTokenRowWrite p seg errs s
  | .creditBeat g b => Sys2Proof.Machine.execCreditBeat g b s
  | .forkFire c e => Sys2Proof.Machine.execForkFire c e s
  | .joinFire c e => Sys2Proof.Machine.execJoinFire c e s
  | .fireSteered c e => Sys2Proof.Machine.execFireSteered c e s
  | .noProgress p => Sys2Proof.Machine.execNoProgress p s
  | .drainEnd p => Sys2Proof.Machine.execDrainEnd p s
  | .drainLimit p => Sys2Proof.Machine.execDrainLimit p s
  | .contextDrainTimeout p => Sys2Proof.Machine.execContextDrainTimeout p s
  | .load img => Sys2Proof.Machine.execLoad img s
  | .placementStart p => Sys2Proof.Machine.execPlacementStart p s
  | .unload => Sys2Proof.Machine.execUnload s
  | .write p d => Sys2Proof.Machine.execWrite p d s
  | .message p d => Sys2Proof.Machine.execMessage p d s
  | .dmaRead p d => Sys2Proof.Machine.execDmaRead p d s
  | .dmaWrite p d => Sys2Proof.Machine.execDmaWrite p d s
  | .gather p d => Sys2Proof.Machine.execGather p d s
  | .readReply p d => Sys2Proof.Machine.execReadReply p d s
  | .ack p d => Sys2Proof.Machine.execAck p d s
  | .nak p d => Sys2Proof.Machine.execNak p d s
  | .packetHop n d h => Sys2Proof.Machine.execPacketHop n d h s
  | .resendTimeout ep rec => Sys2Proof.Machine.execResendTimeout ep rec s
  | .resend ep rec => Sys2Proof.Machine.execResend ep rec s
  | .flowClose ep dst => Sys2Proof.Machine.execFlowClose ep dst s
  | .reorderContextClose ep src => Sys2Proof.Machine.execReorderContextClose ep src s
  | .epochFlip => Sys2Proof.Machine.execEpochFlip s
  | .fabricDrain => Sys2Proof.Machine.execFabricDrain s
  | .refresh t channel => Sys2Proof.Machine.execRefresh t channel s
  | .patrolScrub t otherWrite => Sys2Proof.Machine.execPatrolScrub t otherWrite s
  | .loamCopyBCheck p => Sys2Proof.Machine.execLoamCopyBCheck p s
  | .hbmTbl t d word v => Sys2Proof.Machine.execHbmTbl t d word v s
  | .exportJob => Sys2Proof.Machine.execExportJob s
  | .portTraining n saved locked accepted => Sys2Proof.Machine.execPortTraining n saved locked accepted s
  | .retrain n cause accepted => Sys2Proof.Machine.execRetrain n cause accepted s
  | .laneLockLoss n lane => Sys2Proof.Machine.execLaneLockLoss n lane s
  | .data n f => Sys2Proof.Machine.execData n f s
  | .doorbell n f entries => Sys2Proof.Machine.execDoorbell n f entries s
  | .syncReq n t1 k2 ticks3 k3 => Sys2Proof.Machine.execSyncReq n t1 k2 ticks3 k3 s
  | .setTime n adj => Sys2Proof.Machine.execSetTime n adj s
  | .replay n expected => Sys2Proof.Machine.execReplay n expected s
  | .replayTimeout n => Sys2Proof.Machine.execReplayTimeout n s
  | .idle n f => Sys2Proof.Machine.execIdle n f s
  | .idleSend n => Sys2Proof.Machine.execIdleSend n s
  | .controlFlit n request => Sys2Proof.Machine.execControlFlit n request s
  | .descriptorFetch r readOk words => Sys2Proof.Machine.execDescriptorFetch r readOk words s
  | .run r index => Sys2Proof.Machine.execRun r index s
  | .inputDelivery r readOk input => Sys2Proof.Machine.execInputDelivery r readOk input s
  | .outputWrite p d => Sys2Proof.Machine.execOutputWrite p d s
  | .commitGateOpen r index => Sys2Proof.Machine.execCommitGateOpen r index s
  | .countersEvent p => Sys2Proof.Machine.execCountersEvent p s
  | .hifRing r word v => Sys2Proof.Machine.execHifRing r word v s
  | .acceptGrade => Sys2Proof.Machine.execAcceptGrade s
  | .closePass => Sys2Proof.Machine.execClosePass s
  | .powerOn mainInRange => Sys2Proof.Machine.execPowerOn mainInRange s
  | .coldStart lanes trimmed locked => Sys2Proof.Machine.execColdStart lanes trimmed locked s
  | .timingPortChoice => Sys2Proof.Machine.execTimingPortChoice s
  | .sourceFailure cause => Sys2Proof.Machine.execSourceFailure cause s
  | .relock fioTicks => Sys2Proof.Machine.execRelock fioTicks s
  | .chooseTimingPort n => Sys2Proof.Machine.execChooseTimingPort n s
  | .withdrawTimingPort => Sys2Proof.Machine.execWithdrawTimingPort s
  | .handover target targetLost currentLost => Sys2Proof.Machine.execHandover target targetLost currentLost s
  | .dieTimeCheck => Sys2Proof.Machine.execDieTimeCheck s
  | .twoWireWake address => Sys2Proof.Machine.execTwoWireWake address s
  | .linkSignalWake n => Sys2Proof.Machine.execLinkSignalWake n s
  | .wake mainInRange => Sys2Proof.Machine.execWake mainInRange s
  | .mainReturn => Sys2Proof.Machine.execMainReturn s
  | .mainSag => Sys2Proof.Machine.execMainSag s
  | .auxiliarySag => Sys2Proof.Machine.execAuxiliarySag s
  | .saveWindowEnd headerWritten duration => Sys2Proof.Machine.execSaveWindowEnd headerWritten duration s
  | .brownOut mainInRange => Sys2Proof.Machine.execBrownOut mainInRange s
  | .t0Expiry mainInRange => Sys2Proof.Machine.execT0Expiry mainInRange s
  | .thermalTrip => Sys2Proof.Machine.execThermalTrip s
  | .tripLatchClear mainInRange => Sys2Proof.Machine.execTripLatchClear mainInRange s
  | .sensorRefresh r temp stackTemp proctorTemp volts => Sys2Proof.Machine.execSensorRefresh r temp stackTemp proctorTemp volts s
  | .pgInLow => Sys2Proof.Machine.execPgInLow s
  | .linkReset => Sys2Proof.Machine.execLinkReset s
  | .linkResetRelease => Sys2Proof.Machine.execLinkResetRelease s
  | .nap => Sys2Proof.Machine.execNap s
  | .leaveNap => Sys2Proof.Machine.execLeaveNap s
  | .recess => Sys2Proof.Machine.execRecess s
  | .waveSlot r => Sys2Proof.Machine.execWaveSlot r s
  | .subWave r sub => Sys2Proof.Machine.execSubWave r sub s
  | .railRegulationTimeout r => Sys2Proof.Machine.execRailRegulationTimeout r s
  | .pwrCap v => Sys2Proof.Machine.execPwrCap v s
  | .limiterSample avg100 avg1000 milliVolts hottest => Sys2Proof.Machine.execLimiterSample avg100 avg1000 milliVolts hottest s
  | .dieLinkTraining tile link saved failed => Sys2Proof.Machine.execDieLinkTraining tile link saved failed s
  | .hbmTraining t channel saved pins trained => Sys2Proof.Machine.execHbmTraining t channel saved pins trained s
  | .exam f => Sys2Proof.Machine.execExam f s
  | .rollCall failed routers repairs => Sys2Proof.Machine.execRollCall failed routers repairs s
  | .reconcile => Sys2Proof.Machine.execReconcile s
  | .pointBucketDrop => Sys2Proof.Machine.execPointBucketDrop s
  | .microQuiz u r => Sys2Proof.Machine.execMicroQuiz u r s
  | .detentionQuiz u r => Sys2Proof.Machine.execDetentionQuiz u r s
  | .chkSuspect v => Sys2Proof.Machine.execChkSuspect v s
  | .chkCtrl v => Sys2Proof.Machine.execChkCtrl v s
  | .recovery p cause => Sys2Proof.Machine.execRecovery p cause s
  | .recoveryStepAck p => Sys2Proof.Machine.execRecoveryStepAck p s
  | .recoveryStepTimeout p => Sys2Proof.Machine.execRecoveryStepTimeout p s
  | .stepExecute p vote => Sys2Proof.Machine.execStepExecute p vote s
  | .fenceRequest v request => Sys2Proof.Machine.execFenceRequest v request s
  | .reseat v request => Sys2Proof.Machine.execReseat v request s
  | .reportPersist n => Sys2Proof.Machine.execReportPersist n s
  | .datagram => Sys2Proof.Machine.execDatagram s
  | .managementRouteUp => Sys2Proof.Machine.execManagementRouteUp s
  | .rptRoute v => Sys2Proof.Machine.execRptRoute v s
  | .rptRdidx v => Sys2Proof.Machine.execRptRdidx v s
  | .tstFdmclr v => Sys2Proof.Machine.execTstFdmclr v s
  | .lifecycle readOk blk => Sys2Proof.Machine.execLifecycle readOk blk s
  | .keyRotate readOk blk => Sys2Proof.Machine.execKeyRotate readOk blk s
  | .fwActivate readOk blk => Sys2Proof.Machine.execFwActivate readOk blk s
  | .firmwareSwitch => Sys2Proof.Machine.execFirmwareSwitch s
  | .hpOpen readOk blk => Sys2Proof.Machine.execHpOpen readOk blk s
  | .testAccess readOk blk => Sys2Proof.Machine.execTestAccess readOk blk s
  | .powerCap readOk blk => Sys2Proof.Machine.execPowerCap readOk blk s
  | .fuseProgram readOk blk => Sys2Proof.Machine.execFuseProgram readOk blk s
  | .fwLoad v img => Sys2Proof.Machine.execFwLoad v img s
  | .attestReport v nonce hostOk => Sys2Proof.Machine.execAttestReport v nonce hostOk s
  | .identityCertificate v hostOk => Sys2Proof.Machine.execIdentityCertificate v hostOk s
  | .setPointer offset pec => Sys2Proof.Machine.execSetPointer offset pec s
  | .readWord pec => Sys2Proof.Machine.execReadWord pec s
  | .writeWord v pec => Sys2Proof.Machine.execWriteWord v pec s
  | .readWakeSource => Sys2Proof.Machine.execReadWakeSource s
  | .readStatus => Sys2Proof.Machine.execReadStatus s
  | .managementFrame f => Sys2Proof.Machine.execManagementFrame f s
  | .readService request => Sys2Proof.Machine.execReadService request s
  | .controlRead p d => Sys2Proof.Machine.execControlRead p d s
  | .controlWrite p d => Sys2Proof.Machine.execControlWrite p d s
  | .registerWrite offset values => Sys2Proof.Machine.execRegisterWrite offset values s
  | .tTick => Sys2Proof.Machine.execTTick s
  | .retiringEpochRelease => Sys2Proof.Machine.execRetiringEpochRelease s
  | .managementRouteDown => Sys2Proof.Machine.execManagementRouteDown s
  | .railLeavesRegulation r => Sys2Proof.Machine.execRailLeavesRegulation r s
  | .nop u => Sys2Proof.Machine.execNop u s
  | .auth readOk blk => Sys2Proof.Machine.execAuth readOk blk s
  | .authHoldEnd => Sys2Proof.Machine.execAuthHoldEnd s

end Sys2Proof.Machine
end

