-- ==== Sys2Proof/Safety.lean ====
section
/-! DEFINITION. What a safe run is, the forms of the state that every step keeps, and the terms in which the statements
speak: a bundle of one slot that issues, what it leaves of its core, and what a command leaves unchanged. -/

namespace Sys2Proof

open Sys2Proof.Machine

/-! ## Runs and forms -/

/-- A step that goes on: neither a fault nor a refusal. -/
def Goes (s : State) : Prop := ∃ t, step s = .next t

/-- The memories of bytes are in their canonical form (assumption 4). -/
def MemoryOk (s : State) : Prop := Memory.wf s.scratch.cells = true ∧ Memory.wf s.hbm.cells = true

/-- The policy registers are inside the ranges of their field maps: FAB_RSTO (R381), PRC_WAKECFG (R638), PRC_T0 (R653),
CHK_MARGIN (R714), RPT_ROUTE (R793) and MGT_SMB (R874). -/
def PolicyOk (s : State) : Prop :=
  (4 ≤ s.fab.rstoRemote.toNat ∧ s.fab.rstoRemote.toNat ≤ 128 ∧ 2 ≤ s.fab.rstoLocal.toNat ∧ s.fab.rstoLocal.toNat ≤ 64)
    ∧ (s.pwr.wakeEn ≠ 0 ∧ 8 ≤ s.pwr.wakeAddr.toNat ∧ s.pwr.wakeAddr.toNat < 0x78)
    ∧ (100 ≤ s.pwr.t0Period.toNat ∧ s.pwr.t0Period.toNat ≤ 10000)
    ∧ (s.chk.maxTrim.toNat ≤ 8 ∧ s.chk.maxClock.toNat ≤ 2)
    ∧ (1 ≤ s.rpt.perGram.toNat ∧ s.rpt.perGram.toNat ≤ 16 ∧ 1 ≤ s.rpt.flush.toNat ∧ s.rpt.flush.toNat ≤ 100 ∧ s.rpt.route ≠ 3)
    ∧ (8 ≤ s.sbd.target.toNat ∧ s.sbd.target.toNat < 0x78)

/-! ## Bundles of one slot -/

/-- The slot that a slot command brings. -/
def slotOf (a : Issue) (opc w : Nat) : SlotOp := { slot := a.slot.toNat, opc := opc, w := w }

/-- Whether results and codewords of a core let a bundle issue as it is read: every result on its way is due later, and no
codeword of the bundle is uncorrectable (R105, R165). -/
def Fresh (c : Core) : Prop :=
  (∀ p ∈ c.pend, c.cycle < p.due) ∧ ∀ k, k < 4 → tget 0 c.istoreErrs (c.pc * 4 + k) < 2

/-- A command that is its bundle's only slot, at a core that runs and holds no bundle: no wait and no stall holds the bundle
up, it raises no program fault, it is not at the last address (R96, R107, R123, R163), and no error strikes its arithmetic. -/
def Lone (s : State) (a : Issue) (opc w : Nat) : Prop :=
  let c := getCore s a.u.val
  let op := slotOf a opc w
  canIssue s a.u.val = true ∧ a.more = false ∧ a.upset = none ∧ c.forming = [] ∧ Fresh c ∧ waiting s a.u.val c [op] = false
    ∧ bundleFaults (if opc = 0x88 then strictSnapshot c (bits w 55 50) else c) (getM s a.u.val) [op] = []
    ∧ stalls s a.u.val c op = false ∧ c.pc + 1 < bundleCount c.profile

/-- A result of the bundle that a core issues now, readable `lat` cycles later (R105); in the poison state every byte of it
that it writes is poisoned (R168). -/
def resultOf (c : Core) (slot lat : Nat) (d : Dest) (v q m : Nat) : Pend :=
  { due := c.cycle + lat, slot := slot, dest := d, val := BitVec.ofNat 4096 v,
    pois := BitVec.ofNat 512 (if !c.pstate then q else if m = 0 then 2 ^ 512 - 1 else q ||| m), mask := BitVec.ofNat 512 m }

/-- A core after a bundle that passes on to the next address: one cycle later, with the bundle's address taken into the
signature (R119, R128). -/
def after (c : Core) : Core :=
  { c with sig := sigUpdate c.sig c.pc, cycle := c.cycle + 1, held := none, forming := [], pc := c.pc + 1 }

/-- A core after a bundle with one result: the result is on its way, and the next bundle follows. -/
def passed (c : Core) (p : Pend) : Core := after { c with pend := insertPend p c.pend }

/-- A core after a branch: at this address, one cycle later or with the mispredict delay, in the poison state where the
condition was poisoned (R121, R122, R168). -/
def branched (c : Core) (target : Nat) (late pois : Bool) : Core :=
  { c with sig := sigUpdate c.sig c.pc, cycle := c.cycle + 1 + (if late then mispredict c.profile else 0),
           pstate := c.pstate || pois, held := none, forming := [], pc := target }

/-- The state changed in one core alone, which now is this. -/
def OnlyCore (s t : State) (u : Nat) (c : Core) : Prop :=
  getCore t u = c ∧ (∀ v, v ≠ u → getCore t v = getCore s v) ∧ { t with cores := s.cores } = s

/-- The sources of an integer slot, and the value of its destination at issue (R114). -/
def srcA (s : State) (a : Issue) (w : BitVec 56) : PVal :=
  readSpec s a.u.val (getCore s a.u.val) (bits w.toNat 45 36) 0
def srcB (s : State) (a : Issue) (w : BitVec 56) : PVal :=
  readSpec s a.u.val (getCore s a.u.val) (bits w.toNat 35 26) (bits w.toNat 23 0)
def oldD (s : State) (a : Issue) (w : BitVec 56) : PVal :=
  readSpec s a.u.val (getCore s a.u.val) (bits w.toNat 55 46) 0
/-- The destination of an integer slot: a window word, or a general register (R112, R114). -/
def destOf (w : BitVec 56) : Dest :=
  if bits w.toNat 55 54 = 1 then .win (bits w.toNat 53 52 * 64 + bits w.toNat 51 46) else .gpr (bits w.toNat 51 46)

/-- A slot's command answers a next state in which its core alone has changed: one result with this latency, value and
poison is on its way to this destination. -/
def Yields (s : State) (i : Instr) (a : Issue) (lat : Nat) (d : Dest) (v q m : Nat) : Prop :=
  ∃ t, exec i s = .next t
    ∧ OnlyCore s t a.u.val (passed (getCore s a.u.val) (resultOf (getCore s a.u.val) a.slot.toNat lat d v q m))

/-- The same, with the numeric flags that the slot raised set beside those that were set (R149). -/
def YieldsFlags (s : State) (i : Instr) (a : Issue) (lat : Nat) (d : Dest) (v q m : Nat) (fl : NFlags) : Prop :=
  ∃ t, exec i s = .next t
    ∧ OnlyCore s t a.u.val (passed { getCore s a.u.val with flags := (getCore s a.u.val).flags ||| fl }
        (resultOf (getCore s a.u.val) a.slot.toNat lat d v q m))

/-- A slot's command answers a next state in which its core alone has changed, to this. -/
def Leaves (s : State) (i : Instr) (u : Nat) (c : Core) : Prop := ∃ t, exec i s = .next t ∧ OnlyCore s t u c

/-- Row r of a core's scratchpad is free of symbols in error, and v is its 512 bytes, byte 0 lowest (R100, R227). -/
def RowIs (s : State) (u r v : Nat) : Prop :=
  rowHasErrs s.scratch (scratchAddr u r / 16) = false
    ∧ ∀ b, b < 512 → BitVec.ofNat 8 (v >>> (8 * b)) = scratchByte s u (r * 512 + b)

/-- The bytes of m scratchpad rows of a core from row b up, as whole rows (R100, R226). -/
def rowsAt (s : State) (u b m : Nat) : List Row :=
  (upFrom 0 m).map fun i => BitVec.ofNat 4096 (memRead s.scratch.cells (scratchAddr u (b + i)) 512)

/-- m scratchpad rows of a core from row b up are free of symbols in error (R227). -/
def RowsClean (s : State) (u b m : Nat) : Prop := ∀ i, i < m → rowHasErrs s.scratch (scratchAddr u (b + i) / 16) = false

/-- The outbound engine of a core is idle, no fabric drain runs, there is room for n records and for the flow, and the active
epoch gives the destination the site v, by an entry that its router can correct (R48, R230, R337, R349, R361, R376). -/
def Sendable (s : State) (u dst n v : Nat) : Prop :=
  s.fab.drainFrom = none ∧ (getEp s u).outq = [] ∧ (getEp s u).recs.length + n ≤ 128
    ∧ ((findFlow (getEp s u) (BitVec.ofNat 14 dst)).isSome = true ∨ (getEp s u).flows.length < 64)
    ∧ lookupId (tabOf s s.fab.active) dst = some (.site v) ∧ tget 0 s.fab.routerErrs (entryKey u s.fab.active dst) ≤ 1

/-- The command that a matrix slot's bundle gives its unit (R160, R915). -/
def mcmdOf (c : Core) (a : Issue) (opc w : Nat) : MCmd :=
  { opc := opc, w := w, slot := a.slot.toNat, pc := c.pc, cyc := c.cycle, done := 0 }

/-- A matrix slot's command answers a next state in which its core has moved on, with these rows of a drain outstanding,
its units are these, and nothing else has changed. -/
def Queues (s : State) (i : Instr) (u : Nat) (out : List Nat) (m : MCore) : Prop :=
  ∃ t, exec i s = .next t
    ∧ getCore t u = after { getCore s u with drainOut := (getCore s u).drainOut ++ out } ∧ getM t u = m
    ∧ (∀ v, v ≠ u → getCore t v = getCore s v ∧ getM t v = getM s v)
    ∧ { t with cores := s.cores, mcores := s.mcores } = s

/-- An M-core that a placement has loaded, clocked, in a state whose table of units is canonical (R3, R172, assumption 4). -/
def LoadedM (s : State) (u : Site) : Prop :=
  kindOf s u.val = some .mCore ∧ (getCore s u.val).plc.isSome = true ∧ tblWf mcore0 s.mcores = true ∧ s.clk.gated = false

/-- Units that have made every read that they began, and taken up what they read: no LDW, MVM or CHKCS is half read (R179, R215, R221). -/
def QuietUnits (m : MCore) : Prop :=
  m.reads = [] ∧ m.ldw = none ∧ ∀ j ∈ m.mvJobs, j.xs ≠ [] ∧ (j.chk.isSome = true → j.sums ≠ [])

/-! ## Packets -/

/-- A packet that came whole (R360, R369). -/
def clean : Damage := { headUe := false, crcBad := false, payloadUe := false, corrected := 0 }

/-- The fabric is clocked, and the router that holds a packet takes it: it is not too old, and its destination's entry there is one that
can be corrected (R3, R48, R359). -/
def Taken (s : State) (k : Packet) : Prop :=
  s.clk.gated = false ∧ tooOld s k = false ∧ tget 0 s.fab.routerErrs (entryKey k.pos k.epoch k.dst.toNat) ≤ 1

/-- The i-th packet in flight has come to its unit, is accepted, carries no poison that its header does not announce, and is the one
that its reorder context expects next, with none held behind it (R344, R364, R370). -/
def InTurn (s : State) (i : Nat) (k : Packet) (c : Ctx) : Prop :=
  s.fab.flight[i]? = some k ∧ atUnit k = true ∧ accepts s k = true ∧ Taken s k ∧ transitPoison k = false
    ∧ findCtx (getEp s k.pos) k.src = some c ∧ k.seq = c.expected ∧ c.held = []

/-- A packet's ACK (no code) or NAK is in flight to its source (R373). -/
def Answered (t : State) (k : Packet) (code : Option Nat) : Prop :=
  ∃ a ∈ t.fab.flight, a.ptype = (if code.isSome then 8 else 7) ∧ a.dst = k.src ∧ a.dstSite = k.srcSite
    ∧ bits a.op.toNat 127 112 = k.seq.toNat ∧ bits a.op.toNat 111 104 = code.getD 0

/-- The rows of a packet stand in a core's scratchpad from row b, and every other byte of the memory is as it was. -/
def RowsLanded (s t : State) (u b : Nat) (rows : List PRow) : Prop :=
  (∀ r x, rows[r]? = some x → memRead t.scratch.cells (scratchAddr u (b + r)) 512 = x.data.toNat)
    ∧ ∀ a, (a < scratchAddr u b ∨ scratchAddr u (b + rows.length) ≤ a) → memByte t.scratch.cells a = memByte s.scratch.cells a

/-- A core of a placement's kind with no result on its way and no strict rows, in a canonical table (R231, R259). -/
def QuietCore (s : State) (u : Nat) : Prop :=
  isCoreKind (kindOf s u) = true ∧ (getCore s u).pend = [] ∧ (getCore s u).strict = false ∧ tblWf core0 s.cores = true
    ∧ tblWf 0 (getCore s u).counters = true ∧ MemoryOk s

/-- A row of a stack that its tile delivers as it stands (R453). -/
def HbmClean (s : State) (t row : Nat) : Prop :=
  setHas (getTile s t).damaged row = false ∧ rowHasErrs s.hbm (hbmAddr (t / 16) row / 16) = false
    ∧ rowMarks s.hbm (hbmAddr (t / 16) row / 16) = 0

end Sys2Proof
end

