-- ==== Sys2Proof/Certificates/Slice0/Obligations.lean ====
section
/-! DEFINITION. The statements for the provers, family by family of the table of steps. -/

open Sys2Proof Sys2Proof.Machine

/-- A step runs the front command on the state with the queue's rest; idling on an empty queue is the model's choice
(assumption 1). -/
def Obligations.StepTakesFrontCommand : Prop :=
  (∀ (c : Instr) (s : State), step { s with pending := c :: s.pending } = exec c s)
    ∧ ∀ s : State, s.pending = [] → step s = .next s

/-- Every step answers a next state. -/
def Obligations.EveryCommandAnswersNextState : Prop := ∀ s : State, Goes s

/-- Reset values of the field maps; the straps' value 3 in MGT_SMB is the model's choice (assumption 2). -/
def Obligations.ResetRegisterValues : Prop :=
  let r := fun (g : Reg) (w : Nat) => readReg State.reset g 0 w
  r .fabEpoch 0 = 0 ∧ r .fabEpoch 1 = 0 ∧ r .fabRsto 0 = 0x1008 ∧ r .clkTport 0 = 0 ∧ r .clkTport 1 = 0x800
    ∧ (∃ t, exec (.powerOn true) State.reset = .next t ∧ readReg t .clkTport 0 1 = 0x900)
    ∧ r .prcWakecfg 0 = 0x1CB ∧ r .pwrState 0 = 0 ∧ r .prcT0 0 = 1000 ∧ r .chkCtrl 0 = 0x7E ∧ r .chkCtrl 1 = 0
    ∧ r .chkMargin 0 = 0x88 ∧ r .pwrCap 0 = BitVec.ofNat 64 (5400 * 2 ^ 32 + 5400) ∧ r .rptRoute 0 = 0xA1000
    ∧ r .mgtSmb 0 = 0x4F ∧ r .brgStatus 0 = 0 ∧ r .brgStatus 1 = 0 ∧ r .brgStatus 2 = 0

/-- The two invariants that every step keeps hold at reset; the straps' value is the model's choice (assumption 2). -/
def Obligations.ResetKeepsTheInvariants : Prop := MemoryOk State.reset ∧ PolicyOk State.reset

/-- The canonical form of both memories is kept by every step. -/
def Obligations.StepKeepsMemoriesCanonical : Prop :=
  ∀ s t : State, MemoryOk s → step s = .next t → MemoryOk t

/-- No command takes a policy register out of the range of its field map. -/
def Obligations.StepKeepsPolicyRanges : Prop :=
  ∀ s t : State, PolicyOk s → step s = .next t → PolicyOk t

/-- The register map of R905 is one to one: an offset and the register word that it names give each other. -/
def Obligations.RegisterWordsAtTheirOffsets : Prop :=
  (∀ r ∈ regRows, ∀ k < r.count, ∀ w < r.words,
      (blockAt (r.first + k * r.stride + 8 * w)).isSome = true
        ∧ (regAt (r.first + k * r.stride + 8 * w)).map (fun x => (x.row.reg, x.inst, x.word)) = some (r.reg, k, w))
    ∧ ∀ off x, off % 8 = 0 → regAt off = some x → off = x.row.first + x.inst * x.row.stride + 8 * x.word

/-- A refused write changes nothing; a reserved bit written as 1 refuses it. -/
def Obligations.RefusedWriteChangesNoRegister : Prop :=
  (∀ (s : State) (wire : Bool) (off : Nat) (vals : List Word), (writeAt s wire off vals).1 ≠ 0 → (writeAt s wire off vals).2 = s)
    ∧ (∀ (s : State) (off : BitVec 32) (vals : List Word), (writeAt s false off.toNat vals).1 ≠ 0 →
        exec (.registerWrite off vals) s = .next s)
    ∧ ∀ (s : State) (wire : Bool) (off : Nat) (v : Word) (x : RegWord), regAt off = some x →
        v.toNat &&& reservedBits x.row.reg x.word ≠ 0 → (writeAt s wire off [v]).1 ≠ 0

/-- R638: PRC_WAKECFG, at offset 0x2000. -/
def Obligations.WakeRegisterHoldsAllowedWrites : Prop :=
  readReg State.reset .prcWakecfg 0 0 = 0x1CB ∧
  ∀ (s : State) (v : Word), powered s = true → s.sec.fwRunning.isSome = true →
    if v.toNat < 512 ∧ bits v.toNat 8 7 ≠ 0 ∧ 8 ≤ bits v.toNat 6 0 ∧ bits v.toNat 6 0 < 0x78 then
      ∃ t, exec (.registerWrite 0x2000 [v]) s = .next t ∧ readReg t .prcWakecfg 0 0 = v
        ∧ t = { s with pwr := { s.pwr with wakeEn := BitVec.ofNat 2 (bits v.toNat 8 7), wakeAddr := BitVec.ofNat 7 (bits v.toNat 6 0) } }
    else exec (.registerWrite 0x2000 [v]) s = .next s

/-- R653 and R714: PRC_T0 at offset 0x2018 and CHK_MARGIN at 0x20020. -/
def Obligations.WatchdogAndMarginRegisters : Prop :=
  readReg State.reset .prcT0 0 0 = 1000 ∧ readReg State.reset .chkMargin 0 0 = 0x88 ∧
  ∀ (s : State) (v : Word), powered s = true → s.sec.fwRunning.isSome = true →
    (if bits v.toNat 63 32 = 0 ∧ bits v.toNat 30 16 = 0 ∧ 100 ≤ bits v.toNat 15 0 ∧ bits v.toNat 15 0 ≤ 10000 then
      ∃ t, exec (.registerWrite 0x2018 [v]) s = .next t
        ∧ readReg t .prcT0 0 0 = BitVec.ofNat 64 (bits v.toNat 15 0 + (if s.pwr.t0Save then 2 ^ 31 else 0))
        ∧ t = { s with pwr := { s.pwr with t0Period := BitVec.ofNat 16 (bits v.toNat 15 0) } }
     else exec (.registerWrite 0x2018 [v]) s = .next s)
    ∧ (if v.toNat < 256 ∧ bits v.toNat 1 0 = 0 ∧ bits v.toNat 7 4 ≤ 8 ∧ bits v.toNat 3 2 ≤ 2 then
        ∃ t, exec (.registerWrite 0x20020 [v]) s = .next t ∧ readReg t .chkMargin 0 0 = v
          ∧ t = { s with chk := { s.chk with maxTrim := BitVec.ofNat 4 (bits v.toNat 7 4), maxClock := BitVec.ofNat 2 (bits v.toNat 3 2) } }
       else exec (.registerWrite 0x20020 [v]) s = .next s)

/-- R874 and the field map of R381: MGT_SMB at offset 0x34040 and FAB_RSTO at 0x3010; what recess and power-on make of
MGT_SMB (R874). -/
def Obligations.FabricTimeoutAndTargetAddress : Prop :=
  readReg State.reset .mgtSmb 0 0 = BitVec.ofNat 64 (0x4C + State.reset.sbd.strap.toNat)
  ∧ (∀ (s : State) (m : Bool), s.pwr.state = .off → ∃ t, exec (.powerOn m) s = .next t
      ∧ readReg t .mgtSmb 0 0 = BitVec.ofNat 64 (0x4C + s.sbd.strap.toNat))
  ∧ (∀ s t : State, exec .recess s = .next t → readReg t .mgtSmb 0 0 = readReg s .mgtSmb 0 0)
  ∧ ∀ (s : State) (v : Word), powered s = true → s.sec.fwRunning.isSome = true →
    (if v.toNat < 512 ∧ bit v.toNat 7 = false ∧ 8 ≤ bits v.toNat 6 0 ∧ bits v.toNat 6 0 < 0x78 then
      ∃ t, exec (.registerWrite 0x34040 [v]) s = .next t ∧ readReg t .mgtSmb 0 0 = v
        ∧ t = { s with sbd := { s.sbd with pecReq := bit v.toNat 8, target := BitVec.ofNat 7 (bits v.toNat 6 0) } }
     else exec (.registerWrite 0x34040 [v]) s = .next s)
    ∧ (if v.toNat < 65536 ∧ 4 ≤ bits v.toNat 15 8 ∧ bits v.toNat 15 8 ≤ 128 ∧ 2 ≤ bits v.toNat 7 0 ∧ bits v.toNat 7 0 ≤ 64 then
        ∃ t, exec (.registerWrite 0x3010 [v]) s = .next t ∧ readReg t .fabRsto 0 0 = v
          ∧ t = { s with fab := { s.fab with rstoRemote := BitVec.ofNat 8 (bits v.toNat 15 8), rstoLocal := BitVec.ofNat 8 (bits v.toNat 7 0) } }
       else exec (.registerWrite 0x3010 [v]) s = .next s)

/-- R115, latency 1: the plain arithmetic and logic of an integer slot. -/
def Obligations.ArithmeticAndLogicResults : Prop := ∀ (s : State) (a : Issue) (w : BitVec 56),
  let A := srcA s a w
  let B := srcB s a w
  let ab := ofBool (A.p || B.p)
  let imm := BitVec.ofNat 24 w.toNat
  (Lone s a 0x01 w.toNat → Yields s (.add a w) a 1 (destOf w) (A.v + B.v).toNat ab 0)
  ∧ (Lone s a 0x02 w.toNat → Yields s (.sub a w) a 1 (destOf w) (A.v - B.v).toNat ab 0)
  ∧ (Lone s a 0x03 w.toNat → Yields s (.and_ a w) a 1 (destOf w) (A.v &&& B.v).toNat ab 0)
  ∧ (Lone s a 0x04 w.toNat → Yields s (.or_ a w) a 1 (destOf w) (A.v ||| B.v).toNat ab 0)
  ∧ (Lone s a 0x05 w.toNat → Yields s (.xor_ a w) a 1 (destOf w) (A.v ^^^ B.v).toNat ab 0)
  ∧ (Lone s a 0x0D w.toNat → Yields s (.min_ a w) a 1 (destOf w) (if A.v.toInt ≤ B.v.toInt then A.v else B.v).toNat ab 0)
  ∧ (Lone s a 0x0E w.toNat → Yields s (.max_ a w) a 1 (destOf w) (if A.v.toInt ≤ B.v.toInt then B.v else A.v).toNat ab 0)
  ∧ (Lone s a 0x13 w.toNat → Yields s (.movi a w) a 1 (destOf w) (imm.signExtend 64).toNat 0 0)
  ∧ (Lone s a 0x14 w.toNat → Yields s (.orsh a w) a 1 (destOf w) ((A.v <<< 24) ||| imm.setWidth 64).toNat (ofBool A.p) 0)

/-- R115, latency 1: shifts, compares and the select. -/
def Obligations.ShiftCompareSelectResults : Prop := ∀ (s : State) (a : Issue) (w : BitVec 56),
  let A := srcA s a w
  let B := srcB s a w
  let D := oldD s a w
  let n := B.v.toNat % 64
  let ab := ofBool (A.p || B.p)
  (Lone s a 0x06 w.toNat → Yields s (.shl a w) a 1 (destOf w) (A.v.toNat * 2 ^ n % 2 ^ 64) ab 0)
  ∧ (Lone s a 0x07 w.toNat → Yields s (.shr a w) a 1 (destOf w) (A.v.toNat / 2 ^ n) ab 0)
  ∧ (Lone s a 0x08 w.toNat → Yields s (.sar a w) a 1 (destOf w) (BitVec.ofInt 64 (A.v.toInt / 2 ^ n)).toNat ab 0)
  ∧ (Lone s a 0x09 w.toNat → Yields s (.cmpeq a w) a 1 (destOf w) (ofBool (A.v == B.v)) ab 0)
  ∧ (Lone s a 0x0A w.toNat → Yields s (.cmplt a w) a 1 (destOf w) (ofBool (decide (A.v.toInt < B.v.toInt))) ab 0)
  ∧ (Lone s a 0x0B w.toNat → Yields s (.cmpltu a w) a 1 (destOf w) (ofBool (decide (A.v.toNat < B.v.toNat))) ab 0)
  ∧ (Lone s a 0x0C w.toNat → Yields s (.sel a w) a 1 (destOf w) (if D.v ≠ 0 then A.v else B.v).toNat (ofBool (A.p || B.p || D.p)) 0)

/-- R115 and R116: products, the hash and the arrival counters. -/
def Obligations.MultiplyHashAndCounterReads : Prop := ∀ (s : State) (a : Issue) (w : BitVec 56),
  let A := srcA s a w
  let B := srcB s a w
  let ab := ofBool (A.p || B.p)
  let x := A.v ^^^ B.v
  let y := (x ^^^ (x >>> 29)) * 0x9E3779B97F4A7C15
  (Lone s a 0x10 w.toNat → Yields s (.mul a w) a 3 (destOf w) (A.v.toNat * B.v.toNat % 2 ^ 64) ab 0)
  ∧ (Lone s a 0x11 w.toNat → Yields s (.mulhu a w) a 3 (destOf w) (A.v.toNat * B.v.toNat / 2 ^ 64) ab 0)
  ∧ (Lone s a 0x12 w.toNat → Yields s (.hash_ a w) a 2 (destOf w) (y ^^^ (y >>> 32)).toNat ab 0)
  ∧ (Lone s a 0x15 w.toNat → Yields s (.rdc a w) a 1 (destOf w) (rcnt (getCore s a.u.val) (bits w.toNat 41 36)).toNat 0 0)

/-- R105, R106 and R99: when a result to a general register is written. -/
def Obligations.ResultsBecomeReadableWhenDue : Prop := ∀ (s : State) (u : Site) (p q : Pend) (i : Nat),
  let c := getCore s u.val
  canIssue s u.val = true → c.forming = [] → (∀ k, k < 4 → tget 0 c.istoreErrs (c.pc * 4 + k) < 2) →
  c.pc + 1 < bundleCount c.profile → tblWf pval0 c.gpr = true → p.dest = .gpr i →
  (c.pend = [p] → p.due ≤ c.cycle → ∃ t, exec (.nop u) s = .next t ∧ (getCore t u.val).pend = []
      ∧ rg (getCore t u.val) i = (if i = 0 then pval0 else { v := p.val.setWidth 64, p := p.pois != 0 })
      ∧ ∀ j, j ≠ i → rg (getCore t u.val) j = rg c j)
  ∧ (c.pend = [p] → c.cycle < p.due → ∃ t, exec (.nop u) s = .next t ∧ (getCore t u.val).pend = [p]
      ∧ ∀ j, rg (getCore t u.val) j = rg c j)
  ∧ (c.pend = insertPend p (insertPend q []) → q.dest = .gpr i → i ≠ 0 → p.due = q.due → p.due ≤ c.cycle → p.slot < q.slot →
      ∃ t, exec (.nop u) s = .next t ∧ (getCore t u.val).pend = []
        ∧ rg (getCore t u.val) i = { v := q.val.setWidth 64, p := q.pois != 0 })

/-- R110 and R120: NOP, in the store and at its last address. -/
def Obligations.NopIssuesEmptyBundle : Prop := ∀ (s : State) (u : Site),
  let c := getCore s u.val
  (canIssue s u.val = true → c.forming = [] → Fresh c → c.pc + 1 < bundleCount c.profile →
      Leaves s (.nop u) u.val (after c))
  ∧ (canIssue s u.val = true → c.forming = [] → Fresh c → c.pc + 1 = bundleCount c.profile → c.plc = none → c.fcode = 0 →
      ∃ t, exec (.nop u) s = .next t ∧ (getCore t u.val).run = .halted ∧ (getCore t u.val).fcode = 5
        ∧ (getCore t u.val).frec0 = BitVec.ofNat 64 (5 * 2 ^ 56 + c.pc % 1024 * 2 ^ 43 + c.cycle % 2 ^ 32))
  ∧ (c.run ≠ .running → exec (.nop u) s = .next s)

/-- R117: the row slot. The row is general register plus offset (R118). -/
def Obligations.RowSlotResults : Prop := ∀ (s : State) (a : Issue) (w : BitVec 56), MemoryOk s →
  let c := getCore s a.u.val
  let win := bits w.toNat 55 54
  let r := ((rg c (bits w.toNat 53 48)).v.toNat + bits w.toNat 47 32) % 2 ^ 32
  (∀ v, Lone s a 0x40 w.toNat → v < 2 ^ 4096 → RowIs s a.u.val r v →
      ∃ q, Yields s (.ldrow a w) a (if c.profile = .v then 7 else 6) (.window win) v q 0)
  ∧ (Lone s a 0x41 w.toNat → ∃ v q, (∀ i, i < 64 → bits v (64 * i + 63) (64 * i) = (tget pval0 c.win (win * 64 + i)).v.toNat)
      ∧ (∀ i, i < 64 → bits q (8 * i + 7) (8 * i) = if (rg c (bits w.toNat 53 48)).p || (tget pval0 c.win (win * 64 + i)).p then 255 else 0)
      ∧ Yields s (.strow a w) a 3 (.row r) v q 0)
  ∧ (Lone s a 0x42 w.toNat → Yields s (.clrw a w) a 1 (.window win) 0 0 0)

/-- R119 to R122 and R168: JMP, JAL, JR and the conditional branches. -/
def Obligations.BranchesGoWhereTheySay : Prop := ∀ (s : State) (a : Issue) (w : BitVec 56),
  let c := getCore s a.u.val
  let hint := bit w.toNat 55
  let tgt := bits w.toNat 48 37
  let g := rg c (bits w.toNat 54 49)
  let cond := fun (b : Bool) =>
    if g.p then branched c (if hint then tgt else c.pc + 1) false true
    else branched c (if b then tgt else c.pc + 1) (b != hint) false
  let link := insertPend (resultOf c a.slot.toNat 1 (.gpr (bits w.toNat 54 49)) (c.pc + 1) 0 0) c.pend
  (Lone s a 0x80 w.toNat → Leaves s (.jmp a w) a.u.val (branched c tgt (!hint) false))
  ∧ (Lone s a 0x81 w.toNat → Leaves s (.beqz a w) a.u.val (cond (g.v == 0)))
  ∧ (Lone s a 0x82 w.toNat → Leaves s (.bnez a w) a.u.val (cond (g.v != 0)))
  ∧ (Lone s a 0x83 w.toNat → Leaves s (.bltz a w) a.u.val (cond (decide (g.v.toInt < 0))))
  ∧ (Lone s a 0x84 w.toNat → Leaves s (.bgez a w) a.u.val (cond (decide (0 ≤ g.v.toInt))))
  ∧ (Lone s a 0x85 w.toNat → Leaves s (.jal a w) a.u.val (branched { c with pend := link } tgt (!hint) false))
  ∧ (Lone s a 0x86 w.toNat → Leaves s (.jr a w) a.u.val (branched c g.v.toNat true false))

/-- R129 (SIGCHK), R165, R693, R698 and R914 (RESIDUE), and R119, R430 (HALT). -/
def Obligations.SignatureCheckAndHalt : Prop := ∀ (s : State) (a : Issue) (w : BitVec 56),
  let c := getCore s a.u.val
  let u := a.u.val
  (Lone s a 0x8E w.toNat → (c.sig.toNat = bits w.toNat 31 0 ∨ bit s.chk.enables.toNat 4 = false) →
      Leaves s (.sigchk a w) u { after c with sig := 0 })
  ∧ (Lone s a 0x8E w.toNat → c.sig.toNat ≠ bits w.toNat 31 0 → bit s.chk.enables.toNat 4 = true →
      ∃ t f, exec (.sigchk a w) s = .next t ∧ t.rcv.raised = s.rcv.raised ++ [f] ∧ f.code = 0x23 ∧ f.unit = a.u
        ∧ f.rec1 = BitVec.ofNat 64 (c.sig.toNat * 2 ^ 32 + bits w.toNat 31 0)
        ∧ (getCore t u).sig = 0 ∧ (getCore t u).run = .running ∧ (getCore t u).pc = c.pc + 1)
  ∧ (∀ z, a.upset = some z → z.elem = 0 → Lone s { a with upset := none } 0x01 w.toNat → c.profile = .s →
      let sum := (srcA s a w).v + (srcB s a w).v
      let r := sum ^^^ BitVec.ofNat 64 z.flips
      let p := ofBool ((srcA s a w).p || (srcB s a w).p)
      (bit s.chk.enables.toNat 3 = false → Leaves s (.add a w) u (passed c (resultOf c a.slot.toNat 1 (destOf w) r.toNat p 0)))
      ∧ (bit s.chk.enables.toNat 3 = true → r.toNat % 32767 ≠ sum.toNat % 32767 → s.chk.arb = [] →
          ∃ t f x, exec (.add a w) s = .next t ∧ t.rcv.raised = s.rcv.raised ++ [f] ∧ f.code = 0x22 ∧ f.unit = a.u
            ∧ f.rec1 = BitVec.ofNat 64 (sum.toNat % 32767 * 2 ^ 15 + r.toNat % 32767) ∧ t.chk.arb = [x] ∧ x.unit = a.u ∧ x.code = 0x22
            ∧ x.orig = [BitVec.ofNat 4096 r.toNat] ∧ (getCore t u).run = .running ∧ (getCore t u).pc = c.pc + 1
            ∧ (getCore t u).pend = insertPend (resultOf c a.slot.toNat 1 (destOf w) r.toNat 1 0) c.pend))
  ∧ (Lone s a 0x8F w.toNat → tblWf chan0 c.chans = true → ∃ t, exec (.halt a w) s = .next t ∧ (getCore t u).run = .halted
      ∧ (getCore t u).pc = c.pc + 1
      ∧ (∀ n, chRole (getChan c n) = 2 → (getChan (getCore t u) n).recvState = .closed)
      ∧ (∀ n, chRole (getChan c n) ≠ 2 → getChan (getCore t u) n = getChan c n)
      ∧ (∀ v, v ≠ u → getCore t v = getCore s v) ∧ { t with cores := s.cores } = s)

/-- R96 and R104: a bundle forms slot by slot, and its slots read the same registers. -/
def Obligations.SlotsGatherIntoOneBundle : Prop := ∀ (s : State) (a b : Issue) (v w : BitVec 56),
  let u := a.u.val
  let c := getCore s u
  let sum := resultOf c a.slot.toNat 1 (destOf v) ((srcA s a v).v + (srcB s a v).v).toNat (ofBool ((srcA s a v).p || (srcB s a v).p)) 0
  let dif := resultOf c b.slot.toNat 1 (destOf w) ((srcA s b w).v - (srcB s b w).v).toNat (ofBool ((srcA s b w).p || (srcB s b w).p)) 0
  (canIssue s u = true → a.more = true →
      Leaves s (.add a w) u { c with forming := addSlot { slotOf a 0x01 w.toNat with upset := a.upset } c.forming }
        ∧ Leaves s (.halt a w) u { c with forming := addSlot { slotOf a 0x8F w.toNat with upset := a.upset } c.forming })
  ∧ (canIssue s u = true → b.u = a.u → a.slot.toNat < b.slot.toNat → b.more = false → b.upset = none → c.forming = [slotOf a 0x01 v.toNat] → Fresh c →
      bundleFaults c (getM s u) [slotOf a 0x01 v.toNat, slotOf b 0x02 w.toNat] = [] → c.pc + 1 < bundleCount c.profile →
      Leaves s (.sub b w) u (after { c with pend := insertPend dif (insertPend sum c.pend) }))

/-- R123 to R125 and R260: the waits in their own issue cycle. -/
def Obligations.WaitsHoldOrPass : Prop := ∀ (s : State) (a : Issue) (w : BitVec 56),
  let c := getCore s a.u.val
  let u := a.u.val
  let n := w.toNat
  let ctr := bits n 55 50
  let target := if bit n 49 then (rg c (bits n 48 43)).v.toNat % 2 ^ 32 else bits n 42 11
  let metC := ((rcnt c ctr).toNat + 2 ^ 32 - target) % 2 ^ 32 < 2 ^ 31
  let x := statusWord s u c ctr &&& (rg c (bits n 47 42)).v
  let v := (rg c (bits n 41 36)).v
  let metS := if bits n 49 48 = 0 then x = v else if bits n 49 48 = 1 then x ≠ v else v.toNat ≤ x.toNat
  let legal := fun (o : Nat) => canIssue s u = true ∧ a.more = false ∧ c.forming = [] ∧ Fresh c
    ∧ slotClass c.profile a.slot.toNat = 3 ∧ faultReserved c o n = false ∧ faultOperand c none o n = false
  let heldUp := fun (o : Nat) =>
    { c with held := some { ops := [{ slotOf a o n with upset := a.upset }], isWait := true, since := c.cycle, tested := c.cycle,
                            due := none }, forming := [] }
  let guarded := fun (r : Nat) => c.guards.any fun g => g.counter.toNat == ctr && guardHas g r
  (Lone s a 0x88 n → metC ∧ ∃ t, exec (.waitc a w) s = .next t ∧ (getCore t u).pc = c.pc + 1 ∧ (getCore t u).cycle = c.cycle + 1
      ∧ (c.inRings = [] → c.strict = false → c.dues = [] → (∀ p : Plc, c.plc = some p → intakeOf s p.val u ctr = none) →
          OnlyCore s t u (after c))
      ∧ (c.strict = true → ∀ r, setHas (getCore t u).readable r = (if guarded r then setHas c.arrived r else setHas c.readable r)
          ∧ setHas (getCore t u).arrived r = (!guarded r && setHas c.arrived r)))
  ∧ (legal 0x88 → (¬ metC ∨ waitsOn s u c (slotOf a 0x88 n) = true) → Leaves s (.waitc a w) u (heldUp 0x88))
  ∧ (Lone s a 0x89 n → metS ∧ Leaves s (.waits a w) u (after c))
  ∧ (legal 0x89 → ¬ metS → Leaves s (.waits a w) u (heldUp 0x89))

/-- R293: what a passing WAITC releases of an input ring. -/
def Obligations.WaitcReleasesRingRows : Prop := ∀ (s : State) (a : Issue) (w : BitVec 56) (k : Nat) (r : InRing) (g : Seg),
  let c := getCore s a.u.val
  let u := a.u.val
  let ctr := bits w.toNat 55 50
  let target := if bit w.toNat 49 then (rg c (bits w.toNat 48 43)).v.toNat % 2 ^ 32 else bits w.toNat 42 11
  let kept := match r.prevTarget with
    | none => r.counts
    | some pt => r.counts.dropWhile fun k => !(pt - k).msb
  Lone s a 0x88 w.toNat → c.inRings = [(k, r)] → r.counter = ctr → findSeg s r.plc.val r.seg = some g →
  ∃ t, exec (.waitc a w) s = .next t
    ∧ (getCore t u).inRings = [(k, { r with prevTarget := some (BitVec.ofNat 32 target), counts := kept })]
    ∧ findSeg t r.plc.val r.seg = some { g with owed := g.owed + (r.counts.length - kept.length) }

/-- R107 and R123 to R126: WAIT_CONDITION_MET and STALL_RELEASE. -/
def Obligations.HeldBundlesIssueWhenFreed : Prop := ∀ (s : State) (u : Site) (cyc : Nat) (h : Held) (op : SlotOp),
  let c := getCore s u.val
  let c' := { c with cycle := cyc }
  let s' := setCore s u.val c'
  let free := waiting s' u.val c' [op] = false ∧ stalls s' u.val c' op = false
    ∧ bundleFaults (if op.opc = 0x88 then strictSnapshot c' (bits op.w 55 50) else c') (getM s u.val) [op] = []
  let kept := setCore s u.val { c' with held := some { h with tested := cyc } }
  s.clk.gated = false → c.run = .running → c.held = some h → h.ops = [op] → c.cycle ≤ cyc → h.tested < cyc → Fresh c' → ¬ (0x80 ≤ op.opc ∧ op.opc ≤ 0x86) → op.opc ≠ 0x8F →
  c.pc + 1 < bundleCount c.profile →
  (h.isWait = true → free → ∃ t, exec (.waitConditionMet u cyc) s = .next t ∧ (getCore t u.val).pc = c.pc + 1
      ∧ (getCore t u.val).cycle = cyc + 1 ∧ (getCore t u.val).held = none)
  ∧ (h.isWait = false → free → ∃ t, exec (.stallRelease u cyc) s = .next t ∧ (getCore t u.val).pc = c.pc + 1
      ∧ (getCore t u.val).cycle = cyc + 1 ∧ (getCore t u.val).held = none)
  ∧ (h.isWait = true → waiting s' u.val c' [op] = true → exec (.waitConditionMet u cyc) s = .next kept)
  ∧ (h.isWait = false → stalls s' u.val c' op = true → exec (.stallRelease u cyc) s = .next kept)
  ∧ (h.isWait = true → exec (.stallRelease u cyc) s = .next s)
  ∧ (h.isWait = false → exec (.waitConditionMet u cyc) s = .next s)

/-- R130 and R230: SEND, one operation of up to 64 rows. -/
def Obligations.SendsLaunchTheirPackets : Prop := ∀ (s : State) (a : Issue) (w : BitVec 56) (v : Nat),
  let c := getCore s a.u.val
  let u := a.u.val
  let e := (rg c (bits w.toNat 55 50)).v.toNat
  let base := bits e 49 34
  let n := bits e 33 28 + 1
  Lone s a 0x8A w.toNat → descPoisoned c 0x8A w.toNat = false → Sendable s u (bits e 63 50) n v →
  RowsClean s u base n →
  ∃ t ks, exec (.send a w) s = .next t ∧ t.fab.flight = s.fab.flight ++ ks ∧ ks.length = (n + 1) / 2
    ∧ (∀ k ∈ ks, k.dst.toNat = bits e 63 50 ∧ k.dstSite = v ∧ k.srcSite = u ∧ k.pos = u
        ∧ k.ptype = (if (tileOfId (bits e 63 50)).isSome then 6 else 1))
    ∧ (ks.flatMap (·.rows)).map (·.data) = rowsAt s u base n
    ∧ (getCore t u).pc = c.pc + 1 ∧ (getCore t u).cycle = c.cycle + 1
    ∧ (bit w.toNat 49 = true → tget 0 (getCore t u).slots (bits w.toNat 48 45) = BitVec.ofNat 64 (2 ^ 62))

/-- R407, R411, R412, R425: the four operations of MSG. -/
def Obligations.MessagesSendReleaseCloseResume : Prop := ∀ (s : State) (a : Issue) (w : BitVec 56) (v : Nat),
  let c := getCore s a.u.val
  let u := a.u.val
  let d := (rg c (bits w.toNat 55 50)).v.toNat
  let ch := bits d 60 56
  let x := getChan c ch
  let base := bits d 55 40
  let n := bits d 39 34 + 1
  Lone s a 0x8B w.toNat → descPoisoned c 0x8B w.toNat = false →
  (bits d 63 61 = 0 → n ≤ chRows x → x.sendState = .ready → x.inFlight < 8 → Sendable s u (chPeer x) n v →
    RowsClean s u base n →
    ∃ t ks, exec (.msgSend a w) s = .next t ∧ t.fab.flight = s.fab.flight ++ ks ∧ ks.length = (n + 1) / 2
      ∧ (∀ k ∈ ks, k.dst.toNat = chPeer x ∧ k.dstSite = v ∧ k.ptype = 2)
      ∧ (ks.flatMap (·.rows)).map (·.data) = rowsAt s u base n
      ∧ (getChan (getCore t u) ch).nextSeq = x.nextSeq + 1 ∧ (getChan (getCore t u) ch).inFlight = x.inFlight + 1
      ∧ (getCore t u).pc = c.pc + 1)
  ∧ (bits d 63 61 = 1 → bit w.toNat 49 = false → Leaves s (.msgRelease a w) u (after (setChan c ch
      { x with ro := (x.ro + bits d 39 27) % chRows x, used := x.used - bits d 39 27 })))
  ∧ (bits d 63 61 = 2 → bit w.toNat 49 = false → Leaves s (.msgClose a w) u (after (setChan c ch { x with recvState := .closed })))
  ∧ (bits d 63 61 = 3 → bit w.toNat 49 = false → Leaves s (.msgResume a w) u (after (setChan c ch
      { x with sendState := if x.inFlight = 0 then .ready else .resuming })))

/-- R131, R135, R291: DMA in both directions, and SPUSH. -/
def Obligations.DmaAndStreamPushes : Prop := ∀ (s : State) (a : Issue) (w : BitVec 56) (v : Nat),
  let c := getCore s a.u.val
  let u := a.u.val
  let e := (rg c (bits w.toNat 55 50)).v.toNat
  let base := bits e 47 32
  let n := bits e 31 20 + 1
  (Lone s a 0x8C w.toNat → descPoisoned c 0x8C w.toNat = false → bit e 48 = false → Sendable s u (bits e 63 50) 1 v →
    ∃ t k due, exec (.dmaHbmToRows a w) s = .next t ∧ t.fab.flight = s.fab.flight ++ [k] ∧ k.dst.toNat = bits e 63 50 ∧ k.ptype = 3
      ∧ k.rows = [] ∧ k.last = true
      ∧ (getCore t u).dmaIn = c.dmaIn ++ [{ op := (getEp s u).nextOp, src := BitVec.ofNat 14 (bits e 63 50), base := base, n := n,
                                                counter := bits e 19 14, left := n, due := due }]
      ∧ (getCore t u).pc = c.pc + 1)
  ∧ (Lone s a 0x8C w.toNat → descPoisoned c 0x8C w.toNat = false → bit e 48 = true → Sendable s u (bits e 63 50) n v → RowsClean s u base n →
    ∃ t ks, exec (.dmaRowsToHbm a w) s = .next t ∧ t.fab.flight = s.fab.flight ++ ks ∧ ks.length = (n + 1) / 2
      ∧ (∀ k ∈ ks, k.dst.toNat = bits e 63 50 ∧ k.ptype = 4) ∧ (ks.flatMap (·.rows)).map (·.data) = rowsAt s u base n
      ∧ (getCore t u).pc = c.pc + 1)
  ∧ ∀ (q : Plc) (id : Nat) (g : Seg),
    let m := bits w.toNat 30 26 + 1
    let r := ((rg c (bits w.toNat 52 47)).v.toNat + bits w.toNat 46 31) % 2 ^ 32
    Lone s a 0x8D w.toNat → (rg c (bits w.toNat 52 47)).p = false → tfind c.outPorts (bits w.toNat 55 53) = some (q, id) →
    findSeg s q.val id = some g → (getEp s u).outq = [] → RowsClean s u r m →
    ∃ t g', exec (.spush a w) s = .next t ∧ findSeg t q.val id = some g' ∧ g'.credits + m = g.credits
      ∧ (∃ l, g'.buf = g.buf ++ l ∧ l.map (·.data) = rowsAt s u r (min (32 - g.buf.length) m)) ∧ (getCore t u).pc = c.pc + 1

/-- R144 and R145 for the integer element types (width W); what a shift by W or more gives is open. -/
def Obligations.VectorIntegerElements : Prop := ∀ (s : State) (a : Issue) (w : BitVec 56) (W : Nat),
  let c := getCore s a.u.val
  let n := w.toNat
  let el := fun (r i : Nat) => elemAt (rv c r).v.toNat W i
  let A := el (bits n 50 46)
  let B := el (bits n 45 41)
  let C := el (bits n 40 36)
  let kept := fun (i : Nat) => bit n 27 && el (bits n 32 28) i == 0
  let ones := 2 ^ W - 1
  let ops : List ((Issue → BitVec 56 → Instr) × Nat × (Nat → Nat)) :=
    [(.vadd, 0xC0, fun i => (A i + B i) % 2 ^ W), (.vsub, 0xC1, fun i => (A i + 2 ^ W - B i) % 2 ^ W),
     (.vmul, 0xC2, fun i => A i * B i % 2 ^ W), (.vfma, 0xC3, fun i => (A i * B i + C i) % 2 ^ W),
     (.vmax, 0xC4, fun i => if sx W (A i) ≤ sx W (B i) then B i else A i),
     (.vmin, 0xC5, fun i => if sx W (A i) ≤ sx W (B i) then A i else B i),
     (.vand, 0xC6, fun i => A i &&& B i), (.vor, 0xC7, fun i => A i ||| B i), (.vxor, 0xC8, fun i => A i ^^^ B i),
     (.vcmplt, 0xC9, fun i => if sx W (A i) < sx W (B i) then ones else 0),
     (.vcmpeq, 0xCA, fun i => if A i = B i then ones else 0), (.vsel, 0xCB, fun i => if C i ≠ 0 then A i else B i),
     (.vshl, 0xCC, fun i => A i * 2 ^ B i % 2 ^ W), (.vshr, 0xCD, fun i => ux W (sx W (A i) / 2 ^ B i))]
  etype (bits n 35 33) = some (.int W) → ∀ o ∈ ops, Lone s a o.2.1 n →
    ∃ v q m, Yields s (o.1 a w) a 2 (.vec (bits n 55 51)) v q m ∧ ∀ i, i < 2048 / W →
      if kept i then elemAt m (W / 8) i = 0
      else elemAt m (W / 8) i = 2 ^ (W / 8) - 1 ∧ ((o.2.1 < 0xCC ∨ B i < W) → elemAt v W i = o.2.2 i)

/-- R144 to R149 for the floating element types. -/
def Obligations.VectorFloatElements : Prop := ∀ (s : State) (a : Issue) (w : BitVec 56) (f : FpFmt),
  let c := getCore s a.u.val
  let n := w.toNat
  let W := ewidth (.flt f)
  let el := fun (r i : Nat) => elemAt (rv c r).v.toNat W i
  let kept := fun (i : Nat) => bit n 27 && fpIsZero (fpDecode f (el (bits n 32 28) i))
  let res := fun (o i : Nat) => valuElem o (.flt f) (el (bits n 50 46) i) (el (bits n 45 41) i) (el (bits n 40 36) i)
  let ops : List ((Issue → BitVec 56 → Instr) × Nat) :=
    [(.vadd, 0xC0), (.vsub, 0xC1), (.vmul, 0xC2), (.vfma, 0xC3), (.vmax, 0xC4), (.vmin, 0xC5), (.vand, 0xC6), (.vor, 0xC7),
     (.vxor, 0xC8), (.vcmplt, 0xC9), (.vcmpeq, 0xCA), (.vsel, 0xCB)]
  etype (bits n 35 33) = some (.flt f) → ∀ o ∈ ops, Lone s a o.2 n →
    ∃ v q m fl, YieldsFlags s (o.1 a w) a (if o.2 ≤ 0xC3 then (if W = 8 then 3 else 4) else 2) (.vec (bits n 55 51)) v q m fl
      ∧ (∀ i, i < 2048 / W → kept i = false → elemAt v W i = (res o.2 i).1 % 2 ^ W ∧ elemAt m (W / 8) i = 2 ^ (W / 8) - 1)
      ∧ ∀ j, fl.getLsbD j = true ↔ ∃ i, i < 2048 / W ∧ kept i = false ∧ (res o.2 i).2.getLsbD j = true

/-- R150: the vector row move slot. -/
def Obligations.VectorRowMoves : Prop := ∀ (s : State) (a : Issue) (w : BitVec 56), MemoryOk s →
  let c := getCore s a.u.val
  let n := w.toNat
  let p := bits n 55 52
  let r := ((rg c (bits n 51 46)).v.toNat + bits n 45 30) % 2 ^ 32
  (∀ v, Lone s a 0xD0 n → v < 2 ^ 4096 → RowIs s a.u.val r v → ∃ q, Yields s (.vld a w) a 7 (.pair p) v q 0)
  ∧ (Lone s a 0xD1 n → Yields s (.vst a w) a 3 (.row r) ((rv c (2 * p)).v.toNat + (rv c (2 * p + 1)).v.toNat * 2 ^ 2048)
      (((rv c (2 * p)).p.toNat + (rv c (2 * p + 1)).p.toNat * 2 ^ 256) ||| (if (rg c (bits n 51 46)).p then 2 ^ 512 - 1 else 0)) 0)
  ∧ (∀ t, Lone s a 0xD2 n → etype (bits n 44 42) = some t → ∃ v, (∀ i, i < ecount t →
        elemAt v (ewidth t) i = (rg c (bits n 50 45)).v.toNat % 2 ^ ewidth t)
      ∧ Yields s (.vbc a w) a 2 (.vec (bits n 55 51)) v (if (rg c (bits n 50 45)).p then 2 ^ 256 - 1 else 0) (2 ^ 256 - 1))
  ∧ (∀ t, Lone s a 0xD3 n → etype (bits n 36 34) = some t → bits n 44 37 < ecount t ∧
      Yields s (.vext a w) a 2 (.gpr (bits n 55 50)) (elemAt (rv c (bits n 49 45)).v.toNat (ewidth t) (bits n 44 37))
        (elemAt (rv c (bits n 49 45)).p.toNat (ewidth t / 8) (bits n 44 37)) 0)

/-- R151 and R152: the reduction slot; how wide a sum stands in a vector register and how an extreme stands in a general one are the
model's choice (assumption 73). -/
def Obligations.ReductionsOfARegister : Prop := ∀ (s : State) (a : Issue) (w : BitVec 56),
  let c := getCore s a.u.val
  let n := w.toNat
  let src := (rv c (bits n 48 44)).v.toNat
  let one := if bit n 55 then 1 else 0
  let dest := if bit n 55 then Dest.gpr (bits n 54 49) else .vec (bits n 54 49)
  let mask := if bit n 55 then 0 else 2 ^ 256 - 1
  let level := fun (l : List Nat) => (pairSum l).1
  (∀ W, etype (bits n 43 41) = some (.int W) → Lone s a 0xE0 n → ∃ q, Yields s (.vrsum a w) a (4 + one) dest
      (BitVec.ofInt 64 (((upFrom 0 (2048 / W)).map fun i => sx W (elemAt src W i)).foldl (· + ·) 0)).toNat q mask)
  ∧ (∀ f, etype (bits n 43 41) = some (.flt f) → Lone s a 0xE0 n → ∃ q fl, YieldsFlags s (.vrsum a w) a (6 + one) dest
      ((Nat.repeat level 8 ((upFrom 0 (2048 / ewidth (.flt f))).map fun i => (fpRound fmtFp32 (fpDecode f (elemAt src (ewidth (.flt f)) i))).1)).headD 0)
      q mask fl)
  ∧ (∀ W, etype (bits n 43 41) = some (.int W) → Lone s a 0xE1 n → ∃ k q, k < 2048 / W
      ∧ (∀ i, i < 2048 / W → sx W (elemAt src W i) ≤ sx W (elemAt src W k))
      ∧ Yields s (.vrmax a w) a (4 + one) dest (elemAt src W k) q mask)
  ∧ (∀ W, etype (bits n 43 41) = some (.int W) → Lone s a 0xE2 n → ∃ k q, k < 2048 / W
      ∧ (∀ i, i < 2048 / W → sx W (elemAt src W k) ≤ sx W (elemAt src W i))
      ∧ Yields s (.vrmin a w) a (4 + one) dest (elemAt src W k) q mask)
  ∧ (∀ f, etype (bits n 43 41) = some (.flt f) →
      (Lone s a 0xE1 n → ∃ v q fl, YieldsFlags s (.vrmax a w) a (4 + one) dest v q mask fl)
      ∧ (Lone s a 0xE2 n → ∃ v q fl, YieldsFlags s (.vrmin a w) a (4 + one) dest v q mask fl))
  ∧ (Lone s a 0xE0 n → ∃ t, exec (.vrsum a w) s = .next t ∧ (getCore t a.u.val).pc = c.pc + 1 ∧ (getCore t a.u.val).cycle = c.cycle + 1)
  ∧ (Lone s a 0xE1 n → ∃ t, exec (.vrmax a w) s = .next t ∧ (getCore t a.u.val).pc = c.pc + 1 ∧ (getCore t a.u.val).cycle = c.cycle + 1)
  ∧ (Lone s a 0xE2 n → ∃ t, exec (.vrmin a w) s = .next t ∧ (getCore t a.u.val).pc = c.pc + 1 ∧ (getCore t a.u.val).cycle = c.cycle + 1)

/-- R153 and R154: the conversion slot. -/
def Obligations.ConversionsAndFunctions : Prop := ∀ (s : State) (a : Issue) (w : BitVec 56),
  let c := getCore s a.u.val
  let n := w.toNat
  let A := (rv c (bits n 50 46)).v.toNat
  let B := (rv c (bits n 45 41)).v.toNat
  let k : Int := if bit n 27 then sx 8 ((rg c (bits n 33 28)).v.toNat % 256) else 0
  let d := Dest.vec (bits n 55 51)
  (∀ tf tt, etype (bits n 40 38) = some tf → etype (bits n 37 35) = some tt → Lone s a 0xF0 n →
    let wf := ewidth tf
    let wt := ewidth tt
    let cv := fun (x : Nat) => (cvtOut tt (cvtIn tf k x)).1 % 2 ^ wt
    (wf = wt → ∃ v q fl, (∀ i, i < 2048 / wt → elemAt v wt i = cv (elemAt A wf i))
        ∧ YieldsFlags s (.vcvt a w) a 3 d v q (2 ^ 256 - 1) fl)
    ∧ (wf = 2 * wt → ∃ v q fl, (∀ i, i < 2048 / wf → elemAt v wt i = cv (elemAt A wf i)
        ∧ elemAt v wt (2048 / wf + i) = cv (elemAt B wf i)) ∧ YieldsFlags s (.vcvt a w) a 3 d v q (2 ^ 256 - 1) fl)
    ∧ (wt = 2 * wf → ∃ v q fl, (∀ i, i < 2048 / wt → elemAt v wt i = cv (elemAt A wf (if bit n 34 then 2048 / wt + i else i)))
        ∧ YieldsFlags s (.vcvt a w) a 3 d v q (2 ^ 256 - 1) fl)
    ∧ (wf ≠ wt → wf ≠ 2 * wt → wt ≠ 2 * wf → ∃ t, exec (.vcvt a w) s = .next t ∧ (getCore t a.u.val).pc = c.pc + 1))
  ∧ ∀ o ∈ [(Instr.vexp2, 0xF1, 8), (.vlog2, 0xF2, 8), (.vrcp, 0xF3, 6), (.vrsqrt, 0xF4, 6)], ∃ g : Nat → Nat,
    ∀ (s : State) (a : Issue) (w : BitVec 56), Lone s a o.2.1 w.toNat → ∃ v q fl,
      (∀ i, i < 64 → elemAt v 32 i = g (elemAt (rv (getCore s a.u.val) (bits w.toNat 50 46)).v.toNat 32 i))
      ∧ YieldsFlags s (o.1 a w) a o.2.2 (.vec (bits w.toNat 55 51)) v q (2 ^ 256 - 1) fl

/-- R157 to R160: matrix commands at issue. -/
def Obligations.MatrixCommandsJoinTheirQueues : Prop := ∀ (s : State) (a : Issue) (w : BitVec 56) (x : BitVec 88),
  let c := getCore s a.u.val
  let u := a.u.val
  let m := getM s u
  let n := w.toNat
  let cmd := fun (o v : Nat) => mcmdOf c a o v
  tblWf mcore0 s.mcores = true →
  (Lone s a 0x20 x.toNat → Queues s (.feed a x) u [] { m with feedQ := m.feedQ ++ [cmd 0x20 x.toNat] })
  ∧ (Lone s a 0x21 x.toNat → Queues s (.fstop a x) u [] { m with feedQ := m.feedQ.drop 1 })
  ∧ (Lone s a 0x28 n → (∀ q ∈ m.arrayQ, q.opc = 0x28 ∨ q.opc = 0x2A) → Queues s (.ldw a w) u [] { m with arrayQ := m.arrayQ ++ [cmd 0x28 n] })
  ∧ (Lone s a 0x2A n → (∀ q ∈ m.arrayQ, q.opc = 0x28 ∨ q.opc = 0x2A) → Queues s (.pass a w) u [] { m with arrayQ := m.arrayQ ++ [cmd 0x2A n] })
  ∧ (Lone s a 0x29 n → m.arrayQ = [] → Queues s (.swap a w) u [] { m with swapped := true })
  ∧ (Lone s a 0x2B n → m.arrayQ = [] → m.flight = [] → m.pass = none →
      (∃ t, exec (.tclr a w) s = .next t ∧ (getM t u).arrayQ = [] ∧ (getCore t u).pc = c.pc + 1
        ∧ (tblWf tslot0 m.bank0 = true → tblWf tslot0 m.bank1 = true → ∀ b k, arraySlot (getM t u) b k =
            (if b = bit n 55 ∧ ∃ i, i ≤ bits n 45 37 ∧ k = (bits n 54 46 + i) % 512 then tslot0 else arraySlot m b k))))
  ∧ (Lone s a 0x30 x.toNat → Queues s (.mvm a x) u [] { m with mvQ := m.mvQ ++ [cmd 0x30 x.toNat], mvOpen := some (bits x.toNat 36 29) })
  ∧ (Lone s a 0x38 n → Queues s (.drain a w) u
      (if bit n 31 then [] else upFrom (bits n 30 15) (drainRows (bits n 35 32) (bits n 44 36 + 1))) { m with drainQ := m.drainQ ++ [cmd 0x38 n] })
  ∧ (Lone s a 0x3C n → (∀ j ∈ m.mvJobs, j.chk.isSome = true) → Queues s (.chkown a w) u [] { m with checkQ := m.checkQ ++ [cmd 0x3C n] })
  ∧ (Lone s a 0x3D n → (∀ j ∈ m.mvJobs, j.chk.isSome = true) →
      Queues s (.chkcs a w) u [] { m with checkQ := m.checkQ ++ [cmd 0x3D n], mvOpen := none })

/-- R179 and R181 to R183: what the feeder and the array unit read; the cycle at which a command finds the units is the model's choice
(assumption 74). -/
def Obligations.FeederAndWeightTileReads : Prop := ∀ (s : State) (u : Site) (c : MCmd) (rest : List MCmd), LoadedM s u →
  let m := getM s u.val
  let f := bits c.w 87 84
  let n := bits c.w 67 52
  let st := if bits c.w 51 44 = 0 then 1 else bits c.w 51 44
  let k := min (vecPerRow f) (n - c.done)
  let row := bits c.w 83 68 + c.done / vecPerRow f * st
  (m.feedQ = c :: rest → fmtIsMx f = false → 0 < k → MemoryOk s →
      fifoEntries m.fifo + (if rateClass f = 4 then (k + 1) / 2 else k) ≤ 32 → rowHasErrs s.scratch (scratchAddr u.val row / 16) = false →
    ∃ t vs, exec (.feedRowGroupRead u) s = .next t ∧ (getM t u.val).fifo = m.fifo ++ vs ∧ vs.length = k
      ∧ (∀ j b, j < k → b < vecBytes f → (vs[j]?).map (fun v => (v.fmt, BitVec.ofNat 8 (v.data.toNat >>> (8 * b))))
          = some (f, scratchByte s u.val (row * 512 + j * vecBytes f + b)))
      ∧ (getM t u.val).feedQ = (if c.done + k = n then rest else { c with done := c.done + k } :: rest))
  ∧ (QuietUnits m → m.got = [] → m.portCyc ≤ unitNow s u.val → m.arrayQ = [c] → c.opc = 0x28 → fmtIsMx (bits c.w 55 52) = false →
      m.swapped = false → m.busyTill ≤ unitNow s u.val → RowsClean s u.val (bits c.w 51 36) (tileRows (bits c.w 55 52)) →
    ∃ t, exec (.ldwBegin u) s = .next t ∧ (getM t u.val).ldw = some c ∧ (getM t u.val).arrayQ = [] ∧ (getM t u.val).active = m.active
      ∧ (getM t u.val).got.map (·.data) = rowsAt s u.val (bits c.w 51 36) 4
      ∧ (getM t u.val).reads.length + 4 = tileRows (bits c.w 55 52))
  ∧ (QuietUnits m → m.arrayQ = c :: rest → unitNow s u.val < m.busyTill → exec (.ldwBegin u) s = .next s)
  ∧ ∀ d, m.reads = [] → m.ldw = some d → (∀ j ∈ m.mvJobs, j.xs ≠ [] ∧ (j.chk.isSome = true → j.sums ≠ [])) → m.pass = none →
      m.swapped = true → m.arrayQ = c :: rest → c.opc = 0x2A →
      (unitNow s u.val < tget 0 m.dones 0x28 → exec (.passBegin u) s = .next s)
      ∧ (tget 0 m.dones 0x28 ≤ unitNow s u.val → ∃ t, exec (.passBegin u) s = .next t ∧ (getM t u.val).ldw = none
          ∧ (getM t u.val).active.fmt = some (bits d.w 55 52) ∧ (getM t u.val).active.rows = (gotPart m 0x28 0).map (·.1))

/-- R180, R185, R188 and R224: the events of the array; which work a CHKOWN waits for is the model's choice (assumption 80). -/
def Obligations.PassesAndTallies : Prop := ∀ (s : State) (u : Site) (c : MCmd) (rest : List MCmd), LoadedM s u →
  let m := getM s u.val
  let slot := (bits c.w 54 46 + c.done) % 512
  let b := bit c.w 55
  (QuietUnits m → m.pass = none → m.arrayQ = c :: rest → c.opc = 0x2A → ∃ t, exec (.passBegin u) s = .next t ∧ (getM t u.val).pass = (if bits c.w 45 30 = 0 then none else some c)
      ∧ (getM t u.val).active = (if m.swapped then m.shadow else m.active)
      ∧ (getM t u.val).busyTill = (if m.swapped then unitNow s u.val + 514 else m.busyTill))
  ∧ (∀ v l, m.pass = some c → m.fifo = v :: l → m.mismatch = false → rateClass v.fmt ≠ 4 →
      (∀ f, m.active.fmt = some f → rateClass f = rateClass v.fmt) →
      (bit c.w 29 = true ∨ ((arraySlot m b slot).live = false ∧ inFlightTo m b slot = false)) →
      ∃ t, exec (.vectorEntry u) s = .next t ∧ (getM t u.val).fifo = l
        ∧ (getM t u.val).flight = m.flight ++ [{ cyc := c.cyc, bank := b, slot := slot, vec := v, tile := m.active }]
        ∧ (getM t u.val).pass = (if c.done + 1 = bits c.w 45 30 then none else some { c with done := c.done + 1 }))
  ∧ (∀ v l, m.pass = some c → m.fifo = v :: l → m.mismatch = false → rateClass v.fmt ≠ 4 → bit c.w 29 = false →
      (arraySlot m b slot).live = true → exec (.vectorEntry u) s = .next s)
  ∧ (∀ x l z, m.flight = x :: l → m.arrayQ = [] → ∃ t, exec (.addToTally { site := u, upset := z }) s = .next t ∧ (getM t u.val).flight = l
      ∧ (arraySlot (getM t u.val) x.bank x.slot).live = true
      ∧ ((arraySlot (getM t u.val) x.bank x.slot).pois = true ↔
          ((arraySlot m x.bank x.slot).pois = true ∨ x.vec.pois = true ∨ x.tile.pois = true)))
  ∧ (m.checkQ = [c] → c.opc = 0x3C → ownerIdle m c.cyc = true → ∃ t, exec (.chkownHandover u) s = .next t
      ∧ (getM t u.val).owner = bit c.w 55 ∧ (getM t u.val).checkQ = [])
  ∧ (m.checkQ = [c] → c.opc = 0x3C → ownerIdle m c.cyc = false → exec (.chkownHandover u) s = .next s)

/-- R210, R211, R214 and R221: the matrix-vector path and the drain (the A-cycle at which a command finds them: assumption 74). -/
def Obligations.MatrixVectorWorkAndDrains : Prop := ∀ (s : State) (u : Site) (c : MCmd) (rest : List MCmd), LoadedM s u →
  let m := getM s u.val
  let slots := mvmSlots c.w
  let k := (bits c.w 53 45 + c.done) % 512
  let src := bits c.w 55 54
  (QuietUnits m → m.mvQ = c :: rest → (∀ k ∈ slots, (tget tslot0 m.mvSlots k).live = false) → (∀ j ∈ m.mvJobs, j.chk.isSome = true) → m.checkQ = [] →
      ∃ t, exec (.mvmBegin u) s = .next t ∧ (getM t u.val).mvQ = rest
        ∧ (getM t u.val).mvJobs.map (·.cmd) = m.mvJobs.map (·.cmd) ++ [c])
  ∧ (∀ j l, m.reads = [] → m.mvJobs = j :: l → j.xs = [] → ∃ t, exec (.chkcsTest u) s = .next t
      ∧ ∀ k ∈ mvmSlots j.cmd.w, (tget tslot0 (getM t u.val).mvSlots k).live = true)
  ∧ (QuietUnits m → m.mvQ = c :: rest → (∃ k ∈ slots, (tget tslot0 m.mvSlots k).live = true) → exec (.mvmBegin u) s = .next s)
  ∧ (∀ j l, QuietUnits m → m.mvJobs = j :: l → unitNow s u.val < j.drained → exec (.chkcsTest u) s = .next s)
  ∧ (∀ j l, QuietUnits m → m.mvJobs = j :: l → j.chk.isSome = true → j.drained ≤ unitNow s u.val → m.checkQ = [] →
      let ks := mvmSlots j.cmd.w
      let agree := compareTallies (mvTallies m j.cmd.w) (chkTally j) || !bit s.chk.enables.toNat 1
      ∃ t, exec (.chkcsTest u) s = .next t ∧ (getM t u.val).mvJobs = l
        ∧ (agree = true → (getM t u.val).mvSlots = m.mvSlots ∧ (getM t u.val).mvBad = m.mvBad)
        ∧ (agree = false → (∀ k ∈ ks, (tget tslot0 (getM t u.val).mvSlots k).pois = true)
            ∧ (getM t u.val).mvBad = m.mvBad ++ [(bits j.cmd.w 28 23, ks.length)]))
  ∧ (QuietUnits m → m.drainQ = c :: rest → src < 2 → arrayWaits m c (src == 1) k = true → exec (.drainVector u) s = .next s)
  ∧ (QuietUnits m → m.drainQ = c :: rest → src < 2 → arrayWaits m c (src == 1) k = false → tblWf tslot0 m.bank0 = true → tblWf tslot0 m.bank1 = true →
      let after := if c.done = bits c.w 44 36 then rest else { c with done := c.done + 1 } :: rest
      (bit c.w 31 = false → ∃ t, exec (.drainVector u) s = .next t ∧ arraySlot (getM t u.val) (src == 1) k = tslot0
        ∧ (getM t u.val).drainQ = after)
      ∧ ∀ (q : Plc) (id : Nat) (g : Seg), bit c.w 31 = true → m.sent = 0 → 2 ≤ drainHalves (bits c.w 35 32) →
        tfind (getCore s u.val).outPorts (bits c.w 30 28) = some (q, id) → findSeg s q.val id = some g →
        let rows := drainHalves (bits c.w 35 32) / 2
        (rows ≤ g.credits → g.buf.length + rows ≤ 32 → ∃ t g', exec (.drainVector u) s = .next t
          ∧ arraySlot (getM t u.val) (src == 1) k = tslot0 ∧ (getM t u.val).drainQ = after
          ∧ findSeg t q.val id = some g' ∧ g'.credits + rows = g.credits ∧ g'.buf.length = g.buf.length + rows)
        ∧ (g.credits = 0 → exec (.drainVector u) s = .next s))

/-- R163, R164 and R169: the faults of a bundle at issue. -/
def Obligations.FaultingBundlesDoNotIssue : Prop := ∀ (s : State) (u : Site),
  let c := getCore s u.val
  let faults := issueFaults s u.val c (decodeBundle c.profile (tget 0 c.istore c.pc).toNat)
  canIssue s u.val = true → (∀ p ∈ c.pend, c.cycle < p.due) →
  (faults = [] → exec (.programFault u) s = .next s)
  ∧ ∀ f fs, faults = f :: fs →
    (c.plc = none → c.fcode = 0 → c.fcount = 0 → 0 < f.2.1 → fs.length < 256 → ∃ t, exec (.programFault u) s = .next t
      ∧ (getCore t u.val).run = .halted ∧ (getCore t u.val).fcode = BitVec.ofNat 8 f.2.1 ∧ (getCore t u.val).fcount.toNat = fs.length
      ∧ (getCore t u.val).frec0 = BitVec.ofNat 64 (f.2.1 * 2 ^ 56 + f.1 % 8 * 2 ^ 53 + c.pc % 1024 * 2 ^ 43 + c.cycle % 2 ^ 32)
      ∧ (getCore t u.val).gpr = c.gpr ∧ (getCore t u.val).pend = c.pend ∧ (getCore t u.val).pc = c.pc)
    ∧ (∃ t, exec (.programFault u) s = .next t ∧ (getCore t u.val).run ≠ .running ∧ (getCore t u.val).pc = c.pc)
    ∧ ∀ p : Plc, c.plc = some p → (getPlc s p.val).state = .running →
      ∃ t, exec (.programFault u) s = .next t ∧ (getPlc t p.val).state = .stopped ∧ (getCore t u.val).pc = c.pc

/-- R239, R240, R456 and R457: the scrubbers and refresh. -/
def Obligations.ScrubbersReadAndCorrect : Prop := ∀ (s : State) (u : Site) (t : Tile) (w ch : Bool), MemoryOk s →
  let r := (getCore s u.val).scrub
  let cw := scratchAddr u.val r / 16
  let rows := rowCount (profileOf (kindOf s u.val))
  let row := sliceRow t.val (getTile s t.val).scrub
  let early := (getCore s u.val).scrubAt.any fun t => decide ((s.clk.master - t).toNat < 16)
  (s.clk.gated = true ∨ early = true → exec (.scrub u w) s = .next s)
  ∧ (s.clk.gated = true → exec (.patrolScrub t w) s = .next s ∧ exec (.refresh t ch) s = .next s)
  ∧ (s.clk.gated = false → early = false → isCoreKind (kindOf s u.val) = true → (getCore s u.val).run ≠ .fenced → tblWf core0 s.cores = true → (∀ e ∈ s.scratch.errs, 0 < e.2) →
      (rowHasErrs s.scratch cw = false → ∃ t', exec (.scrub u w) s = .next t' ∧ t'.scratch = s.scratch
        ∧ (getCore t' u.val).scrub = (r + 1) % rows)
      ∧ (rowHasErrs s.scratch cw = true → (∀ k, k < 32 → tget 0 s.scratch.errs (cw + k) ≤ 1) →
          (∀ e ∈ s.scratch.errs, tget 0 s.scratch.errs e.1 = e.2) → (∀ k, k < 32 → setHas s.scratch.poison (cw + k) = false) →
          ∃ t', exec (.scrub u w) s = .next t' ∧ (getCore t' u.val).scrub = (r + 1) % rows
            ∧ (∀ a, memByte t'.scratch.cells a = memByte s.scratch.cells a)
            ∧ rowHasErrs t'.scratch cw = w))
  ∧ (s.clk.gated = false → s.pwr.selfRef = false → tblWf tile0 s.tiles = true →
      (rowHasErrs s.hbm (hbmAddr (t.val / 16) row / 16) = false ∨ setHas (getTile s t.val).damaged row = true) →
      ∃ t', exec (.patrolScrub t w) s = .next t' ∧ t'.hbm = s.hbm
        ∧ (getTile t' t.val).scrub = ((getTile s t.val).scrub + 1) % sliceRows s)
  ∧ (s.pwr.selfRef = true → exec (.patrolScrub t w) s = .next s ∧ exec (.refresh t ch) s = .next s)
  ∧ (s.clk.gated = false → s.pwr.selfRef = false → tblWf 0 (getTile s t.val).bank = true → ∃ t', exec (.refresh t ch) s = .next t'
      ∧ tget 0 (getTile t' t.val).bank (ofBool ch) = tget 0 (getTile s t.val).bank (ofBool ch) + 1
      ∧ (∀ k, k ≠ t.val → getTile t' k = getTile s k) ∧ { t' with tiles := s.tiles } = s)

/-- R292, R294 and R304: where stream rows land; R297 and R309: credit beats. -/
def Obligations.StreamRowsAndCreditsArrive : Prop :=
  (∀ (s : State) (p : Plc) (id : Fin 8192) (g : Seg) (r : SRow) (rest : List SRow),
  findSeg s p.val id.val = some g → g.transit = r :: rest → (∀ v q, g.src = .port v q → (getEp s v.val).outq = []) → s.clk.gated = false →
  marking s p.val = false → MemoryOk s →
  (∀ u port b n ctr ir, g.dst = .ring u port b n ctr → tfind (getCore s u.val).inRings port.toNat = some ir →
      (getCore s u.val).pend = [] → (getCore s u.val).strict = false → tblWf core0 s.cores = true → tblWf 0 (getCore s u.val).counters = true →
      let row := ir.base + ir.next
      ∃ t g', exec (.streamRowWrite p id []) s = .next t ∧ findSeg t p.val id.val = some g' ∧ g'.transit = rest
        ∧ memRead t.scratch.cells (scratchAddr u.val row) 512 = r.data.toNat
        ∧ (∀ a, (a < scratchAddr u.val row ∨ scratchAddr u.val row + 512 ≤ a) → memByte t.scratch.cells a = memByte s.scratch.cells a)
        ∧ rcnt (getCore t u.val) ir.counter = rcnt (getCore s u.val) ir.counter + 1
        ∧ tfind (getCore t u.val).inRings port.toNat =
            some { ir with next := (ir.next + 1) % ir.n, counts := ir.counts ++ [rcnt (getCore s u.val) ir.counter + 1] })
  ∧ (∀ c q d, g.dst = .data c q → tfind (getSw s c.val).dq q.toNat = some d →
      ∃ t g', exec (.streamRowWrite p id []) s = .next t ∧ findSeg t p.val id.val = some g' ∧ g'.transit = rest
        ∧ tfind (getSw t c.val).dq q.toNat = some { d with rows := d.rows ++ [{ r with stamp := s.clk.master }] })
  ∧ (∀ c q d l, g.dst = .token c q → tfind (getSw s c.val).tq q.toNat = some d → tokensOf r.data = some l →
      l.length = bits r.data.toNat 15 0 ∧ ∃ t g', exec (.tokenRowWrite p id []) s = .next t ∧ findSeg t p.val id.val = some g'
        ∧ g'.transit = rest ∧ tfind (getSw t c.val).tq q.toNat = some { d with rows := d.rows ++ [{ stamp := s.clk.master, tokens := l, poison := r.poison != 0, lag := r.lag }] })
  ∧ (∀ c q, g.dst = .token c q → (bits r.data.toNat 15 0 = 0 ∨ 255 < bits r.data.toNat 15 0) → (getPlc s p.val).state = .running →
      ∃ t, exec (.tokenRowWrite p id []) s = .next t ∧ (getPlc t p.val).state = .stopped))
  ∧ (∀ (s : State) (e : BitVec 32) (g : Seg) (pl : Plc) (sg : Fin 8192),
  let p := bits e.toNat 30 28
  let id := bits e.toNat 27 15
  let n := min (bits e.toNat 5 0 + 1) g.owed
  (∀ f : BitVec 32, bit f.toNat 31 = false → exec (.creditBeat ⟨pl, sg⟩ ⟨f.setWidth 1024, []⟩) s = .next s)
  ∧ (s.clk.gated = false → bit e.toNat 31 = true → findSeg s p id = some g →
      ∃ t, exec (.creditBeat ⟨pl, sg⟩ ⟨e.setWidth 1024, []⟩) s = .next t
        ∧ findSeg t p id = some { g with credits := g.credits + n, owed := g.owed - n } ∧ { t with segs := s.segs } = s)
  ∧ ∀ (b : BitVec 1024) (errs : List (Fin 32 × Nat)), s.clk.gated = false → findSeg s pl.val sg.val = some g →
      let rd := decodeRow (b.setWidth 4096) 0 errs s.free
      rd.ue.isSome = true ∨ rd.pois ≠ 0 →
      ∃ t f h, exec (.creditBeat ⟨pl, sg⟩ ⟨b, errs⟩) s = .next t ∧ t.segs = s.segs
        ∧ t.rcv.raised = s.rcv.raised ++ [f] ∧ f.code = 0x32 ∧ h ∈ s.segs ∧ f.unit = toSite (sourceSite h))

/-- R301, R302 and R307: the elements of a stream switch; what a poisoned token does to the row that it steers is the model's choice
(assumption 81). -/
def Obligations.ElementsMoveRows : Prop := ∀ (s : State) (c : Cluster) (e : BitVec 3) (x : Element),
  let w := getSw s c.val
  let d := x.desc.toNat
  let outs := (upFrom 0 (elWays d)).map (elOut d)
  let ins := (upFrom 0 (elWays d)).map (elIn d)
  let carried := fun (r : SRow) => { r with stamp := 0 : SRow }
  s.clk.gated = false → tfind w.el e.toNat = some x → tblWf switch0 s.switches = true →
  (∀ q r rest, elKind d = 1 → tfind w.dq (elIn d 0) = some q → q.rows = r :: rest → (∀ o ∈ outs, 0 < outCredits s c.val o) →
      (outs.map fun o => tfind w.out o).Nodup →
      ∃ t, exec (.forkFire c e) s = .next t ∧ tfind (getSw t c.val).dq (elIn d 0) = some { q with rows := rest }
        ∧ ∀ o ∈ outs, ∀ g, outSeg s c.val o = some g → ∃ g', outSeg t c.val o = some g' ∧ g'.credits + 1 = g.credits
          ∧ g'.transit = g.transit ++ [carried r])
  ∧ (elKind d = 1 → (∃ o ∈ outs, outCredits s c.val o = 0) → exec (.forkFire c e) s = .next s)
  ∧ (∀ (rows : List SRow) (g : Seg), elKind d = 2 → rows.length = elWays d → (∀ i, i < elWays d → headRow w (elIn d i) = rows[i]?) → ins.Nodup →
      outSeg s c.val (elOut d 0) = some g → elWays d ≤ g.credits →
      ∃ t g', exec (.joinFire c e) s = .next t ∧ outSeg t c.val (elOut d 0) = some g' ∧ g'.credits + elWays d = g.credits
        ∧ g'.transit = g.transit ++ rows.map carried
        ∧ ∀ i q, i < elWays d → tfind w.dq (elIn d i) = some q → tfind (getSw t c.val).dq (elIn d i) = some { q with rows := q.rows.drop 1 })
  ∧ (∀ tq tr tok toks more q r rest g, elKind d = 3 → tfind w.tq (elTok d) = some tq → tq.rows = tr :: more → tr.tokens = tok :: toks →
      bits tok.toNat 3 0 < elWays d → tfind w.dq (elIn d 0) = some q → q.rows = r :: rest →
      outSeg s c.val (elOut d (bits tok.toNat 3 0)) = some g →
      (0 < g.credits → bits tok.toNat 15 8 = x.lap.toNat → ∃ t g', exec (.fireSteered c e) s = .next t ∧ outSeg t c.val (elOut d (bits tok.toNat 3 0)) = some g'
        ∧ g'.credits + 1 = g.credits ∧ g'.transit = g.transit ++ [carried (steered r tr)]
        ∧ tfind (getSw t c.val).dq (elIn d 0) = some { q with rows := rest }
        ∧ tfind (getSw t c.val).el e.toNat = some { x with lap := x.lap + 1 })
      ∧ (0 < g.credits → bits tok.toNat 15 8 ≠ x.lap.toNat → ∃ t f, exec (.fireSteered c e) s = .next t ∧ t.segs = s.segs
        ∧ t.switches = s.switches ∧ t.rcv.raised = s.rcv.raised ++ [f] ∧ f.code = 0x30)
      ∧ (g.credits = 0 → exec (.fireSteered c e) s = .next s))

/-- R314, R317 and R757: no progress. -/
def Obligations.NoProgressStartsARecovery : Prop := ∀ (s : State) (p : Plc),
  let x := getPlc s p.val
  let again := ∃ t0, x.resumedAt = some t0 ∧ (s.clk.master - t0).toNat < 1000000
  (x.watchdog < 65536 → exec (.noProgress p) s = .next s)
  ∧ (65536 ≤ x.watchdog → s.clk.gated = false → x.drain = none → x.state = .running → ∃ t, exec (.noProgress p) s = .next t
      ∧ t.chk.points = s.chk.points
      ∧ (again → (getPlc t p.val).state = .stopped)
      ∧ (¬again → (getPlc t p.val).state = .recovering ∧ t.rcv.nextSeq = s.rcv.nextSeq + 1
          ∧ (∃ d, (getPlc t p.val).drain = some d ∧ d.fault = true ∧ d.start = s.clk.master)
          ∧ (∃ r, tget none t.rcv.runs p.val = some r ∧ r.cause = 2 ∧ r.step = 1 ∧ r.seq = s.rcv.nextSeq)
          ∧ (tblWf core0 s.cores = true → ∀ u, (getCore s u).plc = some p → (getCore t u).pstate = true)))
  ∧ (65536 ≤ x.watchdog → s.clk.gated = false → x.drain.isSome = true → tblWf plc0 s.plcs = true →
      ∃ t, exec (.noProgress p) s = .next t ∧ (getPlc t p.val).drain = none)

/-- R321, R322 and R768: how drains end. -/
def Obligations.DrainsEndWithCoresStopped : Prop := ∀ (s : State) (p : Plc) (d : DrainSt),
  let ended := fun (t : State) => (getPlc t p.val).drain = none
    ∧ ∀ u, (getCore s u).plc = some p → ((getCore t u).run = .stopped ∨ (getCore t u).run = .fenced) ∧ (getCore t u).lag = 0
  (getPlc s p.val).drain = some d → tblWf core0 s.cores = true → tblWf plc0 s.plcs = true →
  (inFlight (getPlc s p.val) = 0 → quiet s p.val = true → (d.fault = true ∨ gatesDecided s p.val = true) →
      ∃ t, exec (.drainEnd p) s = .next t ∧ ended t)
  ∧ (d.fault = true → (d.limit < ((s.clk.master - d.start).toNat + 1) * 16 ∨ anyHalted s p.val = true) →
      ∃ t, exec (.drainLimit p) s = .next t ∧ ended t)
  ∧ (d.fault = false → exec (.drainLimit p) s = .next s)
  ∧ ∀ r, tget none s.rcv.runs p.val = some r → d.fault = false → r.planned = true →
      ((s.clk.master - d.start).toNat < 400000 → exec (.contextDrainTimeout p) s = .next s)
      ∧ (400000 ≤ (s.clk.master - d.start).toNat → ∃ t, exec (.contextDrainTimeout p) s = .next t
          ∧ (getPlc t p.val).gatesShut = true
          ∧ ∃ e, (getPlc t p.val).drain = some e ∧ e.fault = true ∧ e.start = s.clk.master ∧ e.unload = d.unload)

/-- R92, R93, R325 and R572: a placement's life on the command ring. -/
def Obligations.LoadingStartingAndUnloading : Prop := ∀ (s : State) (c : Cmd),
  let p := bits (cmdWord c 0) 55 53
  let done := fun (t : State) (status reason : Nat) => t.cmds = s.cmds.filter (fun x => x.index != c.index)
    ∧ (∃ k w, t.out = s.out ++ [.completion 17 k w (BitVec.ofNat 64 (cmdJob c)) 0 s.clk.master]
        ∧ bits w.toNat 63 62 = status ∧ bits w.toNat 55 48 = reason)
    ∧ { t with cmds := s.cmds, out := s.out, rings := s.rings } = s
  tblWf core0 s.cores = true → tblWf plc0 s.plcs = true →
  (∀ im, nextOf s 2 = some c →
      (∀ code, loadCode s p im = some code → ∃ t, exec (.load im) s = .next t ∧ done t 1 code)
      ∧ (loadCode s p im = none → ∃ t, exec (.load im) s = .next t ∧ (getPlc t p).state = .loaded ∧ (getPlc t p).armed = some s.clk.master
          ∧ (getPlc t p).img = some im ∧ t.cmds = (beginCmd s c).cmds ∧ t.out = s.out
          ∧ ∀ i ∈ im.units, let q := getCore t (physOf s i.logical.val)
              q.plc.map (·.val) = some p ∧ q.run = .stopped ∧ q.gpr = [] ∧ q.vec = [] ∧ q.counters = [] ∧ q.pend = []))
  ∧ (∀ (p : Plc) (t0 : Tick), (getPlc s p.val).armed = some t0 → t0 ≠ s.clk.master → s.clk.gated = false → ∃ t, exec (.placementStart p) s = .next t
      ∧ (getPlc t p.val).state = .running ∧ (getPlc t p.val).armed = none ∧ (getPlc t p.val).start = s.clk.master
      ∧ ∀ u, (getCore s u).plc = some p → (getCore t u).pc = (getCore s u).startPc ∧ (getCore t u).cycle = 0
          ∧ (getCore t u).startTick = s.clk.master ∧ ((getCore s u).run ≠ .fenced → (getCore t u).run = .running))
  ∧ (nextOf s 3 = some c →
      ((getPlc s p).state = .absent → ∃ t, exec .unload s = .next t ∧ done t 0 0)
      ∧ ((getPlc s p).state = .stopped → ∃ t, exec .unload s = .next t ∧ getPlc t p = plc0 ∧ (∀ x ∈ t.cmds, x.index ≠ c.index)
          ∧ (∀ g ∈ t.segs, g.plc.val ≠ p) ∧ ∀ u, (getCore s u).plc.map (·.val) = some p → (getCore t u).plc = none)
      ∧ ((getPlc s p).state = .running → ∃ t d, exec .unload s = .next t ∧ (getPlc t p).drain = some d ∧ d.fault = false
          ∧ d.unload = true ∧ d.start = s.clk.master))

/-- R481, R486 to R490: loam copies and exports. -/
def Obligations.LoamIsCheckedAndExported : Prop := ∀ (s : State) (p : Plc) (im : Image) (c : Cmd),
  let bad := im.loam.filter fun b => loamCrc s b.stackB.val b.offB b.maskB b.rows != b.crcB
  let j := jobOf c
  let shard := fun (i r : Nat) => memRead s.hbm.cells (hbmAddr j.stack (j.first + i * j.u + r)) 512
  let at_ := fun (t : State) (i : Nat) => t.out[s.out.length + i]?
  MemoryOk s →
  ((getPlc s p.val).state = .running → (getPlc s p.val).img = some im → (getPlc s p.val).copyB = none →
      ∃ t, exec (.loamCopyBCheck p) s = .next t ∧ (getPlc t p.val).copyB = some bad.isEmpty
        ∧ (getPlc t p.val).loamOne = bad.map (·.unit) ∧ (bad = [] → { t with plcs := s.plcs } = s))
  ∧ ((tabOf s s.fab.active).hostPort.isSome = true → s.xport = none → nextOf s 1 = some c →
      (jobOk s c = true →
        (∀ i r, i < j.k → r < j.u → let row := j.first + i * j.u + r
          setHas (getTile s (rowTile j.stack row)).damaged row = false ∧ rowHasErrs s.hbm (hbmAddr j.stack row / 16) = false
            ∧ rowMarks s.hbm (hbmAddr j.stack row / 16) = 0) →
        ∃ t, exec .exportJob s = .next t ∧ t.hbm = s.hbm
          ∧ (∀ i, i < j.k → ∃ h, at_ t i = some (.hostEntry (BitVec.ofNat 14 ((j.dsts[i]?).getD 0))
              (h :: (upFrom 0 j.u).map fun r => BitVec.ofNat 4096 (shard i r))))
          ∧ (1 ≤ j.m → ∃ h, at_ t j.k = some (.hostEntry (BitVec.ofNat 14 ((j.dsts[j.k]?).getD 0))
              (h :: (upFrom 0 j.u).map fun r => (upFrom 0 j.k).foldl (fun a i => a ^^^ BitVec.ofNat 4096 (shard i r)) 0))))
      ∧ (jobOk s c = false → ∃ t k w, exec .exportJob s = .next t
          ∧ t.out = s.out ++ [.completion 17 k w (BitVec.ofNat 64 (cmdJob c)) 0 s.clk.master]
          ∧ bits w.toNat 63 62 = 1 ∧ bits w.toNat 55 48 = 0x23 ∧ t.hbm = s.hbm ∧ t.xport = none))

/-- R244, R268 to R270, R416 to R419 and R459: packets at a core. -/
def Obligations.CorePacketsApply : Prop := ∀ (s : State) (i : Nat) (k : Packet) (c : Ctx),
  let w := k.op.toNat
  let u := k.pos
  let core := getCore s u
  let limit := rowCount (profileOf (kindOf s u))
  let n := bits w 77 72 + 1
  let counted := fun (t : State) (j m : Nat) => rcnt (getCore t u) j = rcnt core j + BitVec.ofNat 32 (if k.last then m else 0)
  InTurn s i k c → QuietCore s u → k.fromPort = none → c.refuse = none → c.place = none → c.progress = 0 →
  (k.ptype = 1 → k.rows.length ≤ n → bits w 105 90 = 0 →
      (bits w 127 112 + n ≤ limit → ∃ t, exec (.write i clean) s = .next t ∧ RowsLanded s t u (bits w 127 112) k.rows
          ∧ counted t (bits w 111 106) n ∧ Answered t k none ∧ t.hbm = s.hbm)
      ∧ (limit < bits w 127 112 + n → ∃ t, exec (.write i clean) s = .next t ∧ t.scratch = s.scratch ∧ Answered t k (some 0x4C)))
  ∧ (∀ h, k.ptype = 1 → k.rows.length ≤ n → bits w 105 90 ≠ 0 → findPass core (bits w 105 90) = some h →
      (passCheck s u (some h) (bits w 89 78) (bits w 127 112) n = none →
        ∃ t, exec (.write i clean) s = .next t ∧ RowsLanded s t u (h.base + bits w 127 112) k.rows
          ∧ counted t h.counter.toNat n ∧ Answered t k none
          ∧ ∃ g, findPass (getCore t u) (bits w 105 90) = some g ∧ g.credit = h.credit - 512 * n ∧ g.accepted = sat32 h.accepted n)
      ∧ ∀ code, passCheck s u (some h) (bits w 89 78) (bits w 127 112) n = some code →
          ∃ t g, exec (.write i clean) s = .next t ∧ t.scratch = s.scratch ∧ Answered t k (some code)
            ∧ findPass (getCore t u) (bits w 105 90) = some g ∧ g.credit = h.credit ∧ g.refusedW = sat32 h.refusedW 1)
  ∧ (k.ptype = 2 → k.rows.length ≤ bits w 93 88 + 1 →
      let ch := bits w 127 123
      let m := bits w 93 88 + 1
      let x := getChan core ch
      let tail := chRows x - x.wo
      (∀ p, msgCheck x k.src w m = .inr p → ∃ t, exec (.message i clean) s = .next t ∧ Answered t k none
          ∧ (∀ r q, k.rows[r]? = some q → memRead t.scratch.cells (scratchAddr u (chBase x + p + r)) 512
              = if r = 0 then q.data.toNat / 2 ^ 128 * 2 ^ 128 + msgHeader s u w k.src else q.data.toNat)
          ∧ let y := getChan (getCore t u) ch
            y.wo = (p + m) % chRows x ∧ y.used = x.used + m + (if tail < m then tail else 0) ∧ y.expected = x.expected + 1
              ∧ y.delivered = (if k.last then x.delivered + 1 else x.delivered))
      ∧ ∀ code, msgCheck x k.src w m = .inl code → ∃ t, exec (.message i clean) s = .next t ∧ t.scratch = s.scratch
          ∧ Answered t k (some code) ∧ getChan (getCore t u) ch = { x with cDropped := sat32 x.cDropped 1 })
  ∧ (k.ptype = 5 →
      (bits w 127 112 + (bits w 105 94 + 1) ≤ limit → ∃ t, exec (.readReply i clean) s = .next t
        ∧ RowsLanded s t u (bits w 127 112) k.rows ∧ counted t (bits w 111 106) (bits w 105 94 + 1) ∧ Answered t k none)
      ∧ (limit < bits w 127 112 + (bits w 105 94 + 1) → ∃ t, exec (.readReply i clean) s = .next t ∧ t.scratch = s.scratch
        ∧ Answered t k (some 0x4C)))

/-- R459, R460, R474 and R924: requests at a port tile. -/
def Obligations.TilePacketsAreServed : Prop := ∀ (s : State) (i : Nat) (t : Tile) (k : Packet) (c : Ctx) (v : Nat),
  let w := k.op.toNat
  let row := bits w 127 101
  let n := bits w 100 89 + 1
  let bad := badRange s t.val row n (fromProgram k)
  let rowOf := fun (r : Nat) => ({ data := BitVec.ofNat 4096 (memRead s.hbm.cells (hbmAddr (t.val / 16) r) 512), poison := 0 } : PRow)
  let replied := fun (t' : State) (dst base ctr : Nat) (rows : List PRow) => ∃ a ∈ t'.fab.flight, a.ptype = 5 ∧ a.dst.toNat = dst
    ∧ bits a.op.toNat 127 112 = base ∧ bits a.op.toNat 111 106 = ctr ∧ a.rows = rows
  InTurn s i k c → k.pos = tileSite t.val → kindOf s k.pos = some .portTile → k.fromPort = none → MemoryOk s →
  (k.ptype = 3 → c.refuse = none →
      (bad = false → Sendable s k.pos k.src.toNat 1 v → (∀ r, r < n → HbmClean s t.val (row + r)) →
        ∃ t', exec (.dmaRead i clean) s = .next t' ∧ t'.hbm = s.hbm ∧ Answered t' k none
          ∧ replied t' k.src.toNat (bits w 88 73) (bits w 72 67) ((upFrom 0 (min 2 n)).map fun r => rowOf (row + r)))
      ∧ (bad = true → ∃ t', exec (.dmaRead i clean) s = .next t' ∧ t'.hbm = s.hbm ∧ Answered t' k (some 0x70)))
  ∧ (k.ptype = 4 → c.progress = 0 → bad = false → k.rows.length ≤ n →
      ((upFrom row n).any (isLoam s (t.val / 16)) = false → ∃ t', exec (.dmaWrite i clean) s = .next t' ∧ Answered t' k none
          ∧ (∀ r x, k.rows[r]? = some x → memRead t'.hbm.cells (hbmAddr (t.val / 16) (row + r)) 512 = x.data.toNat)
          ∧ ∀ a, (a < hbmAddr (t.val / 16) row ∨ hbmAddr (t.val / 16) (row + k.rows.length) ≤ a) →
              memByte t'.hbm.cells a = memByte s.hbm.cells a)
      ∧ ((upFrom row n).any (isLoam s (t.val / 16)) = true → ∃ t', exec (.dmaWrite i clean) s = .next t' ∧ t'.hbm = s.hbm
          ∧ (k.last = true → Answered t' k (some 0x71))))
  ∧ (k.ptype = 6 → k.last = true →
      let rows := c.gather ++ k.rows
      let g := gatherReq rows
      let d := tget tblDesc0 (getTile s t.val).tables g.table
      let stride := 2 ^ bits d.w0.toNat 59 58
      (∀ code, gatherCheck g d rows.length = some code → ∃ t', exec (.gather i clean) s = .next t' ∧ t'.hbm = s.hbm
          ∧ Answered t' k (some code))
      ∧ ∀ e, gatherCheck g d rows.length = none → g.pool = 0 → g.outFmt = 3 → g.items = [(e, 0)] → (∀ r ∈ rows, r.poison = 0) →
          let sec := bits d.w0.toNat 25 0 + e * stride
          let r := sliceRow t.val (sec / 8)
          HbmClean s t.val r → Sendable s k.pos g.dst 1 v →
          ∃ t', exec (.gather i clean) s = .next t' ∧ t'.hbm = s.hbm ∧ Answered t' k none
            ∧ replied t' g.dst (bits w 127 112) (bits w 111 106)
                [{ data := BitVec.ofNat 4096 (bits (rowOf r).data.toNat (512 * (sec % 8) + 512 * stride - 1) (512 * (sec % 8))), poison := 0 }])

/-- R361, R363, R374 and R379 to R382: the source's side of a packet operation. -/
def Obligations.AnswersEndOperations : Prop := ∀ (s : State) (i key : Nat) (r : Rec) (o : Op),
  let again := fun (t : State) => (∃ a ∈ t.fab.flight, a.dst = r.hdr.dst ∧ a.seq = r.hdr.seq ∧ a.rows = r.kept)
    ∧ ∃ q, recAt t key i = some q ∧ q.sent = r.sent + 1 ∧ q.delayed = none ∧ q.lastTx = s.clk.master
  (getEp s key).outq = [] → tblWf endpoint0 s.fab.eps = true → s.clk.gated = false →
  (∀ k : Packet, s.fab.flight[i]? = some k → k.pos = k.dstSite → tooOld s k = false → answerAccepted s k = true → answerKey k = key → findOp s key r.op = some o →
      findRec (getEp s key) k.src (BitVec.ofNat 16 (bits k.op.toNat 127 112)) = some r →
      let code := bits k.op.toNat 111 104
      (k.ptype = 7 → ∃ t, exec (.ack i clean) s = .next t ∧ (∀ q ∈ (getEp t key).recs, ¬(q.hdr.dst = r.hdr.dst ∧ q.hdr.seq = r.hdr.seq))
          ∧ (o.left = 1 → findOp t key o.id = none
              ∧ ∀ n, o.slot = some n → key < 12800 → tget 0 (getCore t key).slots n = slotWord 2 0 o.rows (timeAt s key))
          ∧ (1 < o.left → findOp t key o.id = some { o with acked := o.acked + r.count, left := o.left - 1 }))
      ∧ (k.ptype = 8 → o.kind = .write → ¬[0x41, 0x48, 0x49, 0x4A].contains code → ∃ t, exec (.nak i clean) s = .next t
          ∧ findOp t key o.id = none ∧ (∀ q ∈ (getEp t key).recs, q.op ≠ o.id)
          ∧ ∀ n, o.slot = some n → key < 12800 → tget 0 (getCore t key).slots n = slotWord 3 code o.acked (timeAt s key))
      ∧ (k.ptype = 8 → (code = 0x41 ∨ code = 0x49) → r.sent < 5 → ∃ t, exec (.nak i clean) s = .next t
          ∧ findRec (getEp t key) r.hdr.dst r.hdr.seq = some { r with delayed := some s.clk.master }))
  ∧ (recAt s key i = some r → s.fab.drainFrom = none →
      (r.delayed = none → (s.clk.master - r.lastTx).toNat < timeoutOf s r → exec (.resendTimeout key i) s = .next s)
      ∧ (∀ t0, r.delayed = some t0 → (s.clk.master - t0).toNat < 100 → exec (.resend key i) s = .next s)
      ∧ (∀ h, r.base = none → payloadCrc r.kept = r.crc → address s key r.hdr = (s, some h) → h.toPort = none →
          (r.delayed = none → timeoutOf s r ≤ (s.clk.master - r.lastTx).toNat → r.sent < 5 →
            ∃ t, exec (.resendTimeout key i) s = .next t ∧ again t)
          ∧ ∀ t0, r.delayed = some t0 → 100 ≤ (s.clk.master - t0).toNat → ∃ t, exec (.resend key i) s = .next t ∧ again t))
  ∧ (∀ (dst : Epid) (f : Flow), findFlow (getEp s key) dst = some f →
      ((getEp s key).recs.any (fun q => q.hdr.dst == dst) = false → 3200 ≤ (s.clk.master - f.lastAct).toNat →
        ∃ t, exec (.flowClose key dst) s = .next t ∧ findFlow (getEp t key) dst = none)
      ∧ ((s.clk.master - f.lastAct).toNat < 3200 → exec (.flowClose key dst) s = .next s))
  ∧ ∀ (src : Epid) (c : Ctx), findCtx (getEp s key) src = some c →
      (c.held = [] → 1600 ≤ (s.clk.master - c.last).toNat →
        ∃ t, exec (.reorderContextClose key src) s = .next t ∧ findCtx (getEp t key) src = none)
      ∧ ((s.clk.master - c.last).toNat < 1600 → exec (.reorderContextClose key src) s = .next s)

/-- R341, R343, R349 and R356 to R360: hops and epochs. -/
def Obligations.PacketsHopAndEpochsFlip : Prop := ∀ (s : State),
  s.clk.gated = false →
  (∀ (i v : Nat) (d : Dir) (k : Packet), s.fab.flight[i]? = some k → hopTo s k d = some v →
      (d ≠ .edge → dieOf k.pos = dieOf k.dstSite → hopCount v k.dstSite < hopCount k.pos k.dstSite)
      ∧ (tooOld s k = false → leavesModule { k with pos := v } = false → ∃ t, exec (.packetHop i d ⟨false, false⟩) s = .next t
          ∧ t.fab.flight[i]? = some { k with pos := v } ∧ (∀ j, j ≠ i → t.fab.flight[j]? = s.fab.flight[j]?)
          ∧ { t with fab := { t.fab with flight := s.fab.flight } } = s)
      ∧ (tooOld s k = false → ∃ t d' v', exec (.packetHop i d ⟨true, false⟩) s = .next t ∧ hopTo s k d' = some v'
          ∧ (leavesModule { k with pos := v' } = false → t.fab.flight[i]? = some { k with pos := v' })))
  ∧ (∀ (i : Nat) (d : Dir) (k : Packet) (both ue : Bool), s.fab.flight[i]? = some k → (tooOld s k = true ∨ ue = true) →
      ∃ t, exec (.packetHop i d ⟨both, ue⟩) s = .next t ∧ t.fab.flight = ldel s.fab.flight i)
  ∧ (∀ i d k, s.fab.flight[i]? = some k → hopTo s k d = none → tooOld s k = false → exec (.packetHop i d ⟨false, false⟩) s = .next s)
  ∧ (s.fab.pending = true → s.fab.flipTime ≤ s.clk.master → exec .epochFlip s = .next { s with
      fab := { s.fab with active := !s.fab.active, pending := false, retiring := true, flippedAt := s.clk.master } })
  ∧ ((s.fab.pending = false ∨ s.clk.master < s.fab.flipTime) → exec .epochFlip s = .next s)
  ∧ (s.fab.retiring = true → s.fab.want = none → 1000 ≤ (s.clk.master - s.fab.flippedAt).toNat →
      exec .retiringEpochRelease s = .next { s with fab := { s.fab with retiring := false } })
  ∧ ∀ t0, s.fab.drainFrom = some t0 →
      ((s.clk.master - t0).toNat < 1000 → exec .fabricDrain s = .next s)
      ∧ (1000 ≤ (s.clk.master - t0).toNat → (∀ k, (getEp s k).outq = []) → tblWf endpoint0 s.fab.eps = true →
          ∃ t, exec .fabricDrain s = .next t ∧ t.fab.tab0 = decidedTables s ∧ t.fab.tab1 = decidedTables s
            ∧ t.fab.active = false ∧ t.fab.pending = false ∧ t.fab.retiring = false ∧ t.fab.drainFrom = none ∧ t.fab.flight = []
            ∧ ∀ k, (getEp t k).recs = [] ∧ (getEp t k).ctxs = [])

/-- R503 to R508 and R526: training. -/
def Obligations.PortsTrainAndRetrain : Prop := ∀ (s : State) (n : Port),
  let x := getPort s n.val
  let fenced := fun (t : State) => (getPort t n.val).state = .fenced ∧ (getPort t n.val).lanes = 0
  (∀ (saved : Bool) (locked acc : BitVec 2), let l := acc &&& locked
      let sv := saved && lanesSaved s n.val
      (powered s = false ∨ fusedOff s n.val = true → exec (.portTraining n saved locked acc) s = .next s)
      ∧ (powered s = true → fusedOff s n.val = false → x.state = .untrained → s.pwr.linkRst = true →
          ∃ t, exec (.portTraining n saved locked acc) s = .next t
            ∧ (sv = true ∧ l ≠ 3 → (getPort t n.val).state = .training ∧ (getPort t n.val).savedSet = false
                ∧ t.brg.savedBad = sat8 s.brg.savedBad 1)
            ∧ (sv = false ∧ l = 0 → fenced t)
            ∧ (l = 3 ∨ (sv = false ∧ l ≠ 0) → let y := getPort t n.val
                y.state = .up ∧ y.lanes = l ∧ y.txSeq = 0 ∧ y.rxExp = 0 ∧ y.buffer = [] ∧ y.toReturn = 512 ∧ y.savedSet = sv
                  ∧ (l ≠ 3 → bit t.sbd.cause.toNat 4 = true))))
  ∧ (∀ (cause : RetrainCause) (acc : BitVec 2), x.trained = true → (x.state = .up ∨ x.state = .training) → x.txq = [] →
      (retrainDue x cause = false → exec (.retrain n cause acc) s = .next s)
      ∧ (retrainDue x cause = true → fusedOff s n.val = false → ∃ t, exec (.retrain n cause acc) s = .next t
        ∧ (acc = 0 → fenced t)
        ∧ (acc ≠ 0 → let y := getPort t n.val
            y.state = .up ∧ y.lanes = acc ∧ y.retrains = (if x.retrains = 31 then 31 else x.retrains + 1) ∧ y.txSeq = x.txSeq
              ∧ y.rxExp = x.rxExp ∧ y.buffer = x.buffer ∧ y.credits = x.credits)))
  ∧ (tblWf port0 s.ports = true →
      (∀ lane : Bool, ∃ t, exec (.laneLockLoss n lane) s = .next t ∧ { t with ports := s.ports } = s
          ∧ (∀ m, m ≠ n.val → getPort t m = getPort s m)
          ∧ (getPort t n.val).locked = x.locked &&& (if lane then 1 else 2)
          ∧ (x.locked = 3 → (getPort t n.val).refLane = !lane) ∧ (getPort t n.val).state = x.state)
      ∧ ∀ request, ∃ t, exec (.controlFlit n request) s = .next t ∧ { t with ports := s.ports } = s
          ∧ getPort t n.val = (if x.state = .up ∧ Config.controlMeaning request = 2 then { x with state := .training } else x))

/-- R513 to R518, R521 and R532: sequenced flits. -/
def Obligations.FlitsAreTakenInOrder : Prop := ∀ (s : State) (n : Port) (f : Flit),
  let x := getPort s n.val
  let taken := fun (t : State) => (getPort t n.val).rxExp = x.rxExp + 1 ∧ (getPort t n.val).ackOwed = true
    ∧ (getPort t n.val).toReturn = x.toReturn + 1 ∧ (getPort t n.val).asked = false ∧ t.out = s.out
  let v := entrySite s n.val
  let room := entryMoves s n.val = false ∧ x.block = []
  let refused := fun (t : State) => (getPort t n.val).asked = true ∧ (getPort t n.val).rxExp = x.rxExp
    ∧ (getPort t n.val).replSent = sat32 x.replSent 1 ∧ t.out = s.out ++ [.replayFlit n x.rxExp] ∧ t.fab = s.fab ∧ t.rings = s.rings
  x.state = .up → x.txq = [] →
  (flitGood f = true → f.seq = x.rxExp →
      (room → f.packets = [] → ∃ t, exec (.data n f) s = .next t ∧ taken t ∧ t.fab = s.fab)
      ∧ (∀ h u (e : Epid), let k := hostPacket s n.val v h
          room → f.packets = [h] → crcHolds h.head h.rows = true → k.dst.toNat ≠ 12800 + n.val → injectable k = true →
          s.pwr.phase = .run → s.brg.phase = 6 → (if k.ptype = 1 then passHolder s k = some e else e = k.dst) →
          tget 0 s.fab.routerErrs (entryKey v s.fab.active e.toNat) ≤ 1 → lookupId (tabOf s s.fab.active) e.toNat = some (.site u) →
          ∃ t, exec (.data n f) s = .next t ∧ taken t ∧ t.fab.flight = s.fab.flight ++ [routed s { k with dst := e, dstSite := u }])
      ∧ (entryMoves s n.val = true →
          (x.block.length < 512 → ∃ t, exec (.data n f) s = .next t ∧ (getPort t n.val).rxExp = x.rxExp + 1
            ∧ (getPort t n.val).block = x.block ++ [f.packets] ∧ (getPort t n.val).toReturn = x.toReturn ∧ t.fab = s.fab)
          ∧ (512 ≤ x.block.length → x.asked = false → ∃ t, exec (.data n f) s = .next t ∧ refused t))
      ∧ ∀ (d : BitVec 9) (v : BitVec 32) (r : Nat) (p : Bool), bellRing d.toNat = some (r, p) →
          let y := getRing s r
          let diff := (v - if p then y.prod else y.cons).toNat
          (1 ≤ diff → diff < 2 ^ 31 → (p = true → y.enable = true → (v - y.cons).toNat ≤ ringSize y) →
            ∃ t, exec (.doorbell n f [(d, v)]) s = .next t ∧ taken t ∧ (tblWf ring0 s.rings = true →
              getRing t r = if p then { y with prod := v } else { y with cons := v }))
          ∧ ((diff = 0 ∨ 2 ^ 31 ≤ diff) → ∃ t, exec (.doorbell n f [(d, v)]) s = .next t ∧ taken t ∧ t.rings = s.rings))
  ∧ (∀ es, flitGood f = false → x.asked = false →
      (∃ t, exec (.data n f) s = .next t ∧ refused t) ∧ ∃ t, exec (.doorbell n f es) s = .next t ∧ refused t)
  ∧ (∀ es, flitGood f = true → f.seq ≠ x.rxExp → (x.rxExp - f.seq).toNat < 2048 →
      exec (.data n f) s = .next (countFec s n.val f) ∧ exec (.doorbell n f es) s = .next (countFec s n.val f))
  ∧ (countFec s n.val f = s ∨ ∃ c d, countFec s n.val f = setPort s n.val { x with fec := c, unc := d })
  ∧ (f.fec = [] → countFec s n.val f = s)
  ∧ (f.crcOk = true → f.headerOk = true → fecBad f = false → f.ackValid = true → f.ack ∈ x.buffer →
      ∃ t, exec (.idle n f) s = .next t ∧ (getPort t n.val).buffer = (x.buffer.dropWhile (· != f.ack)).drop 1
        ∧ (getPort t n.val).credits = x.credits + f.credits.toNat ∧ (getPort t n.val).txSeq = x.txSeq ∧ t.out = s.out)
  ∧ (x.ackOwed = true → ∃ t, exec (.idleSend n) s = .next t ∧ t.out = s.out ++ [.idleFlit n (x.rxExp - 1) x.toReturn]
      ∧ (getPort t n.val).ackOwed = false ∧ (getPort t n.val).toReturn = 0)
  ∧ (x.ackOwed = false → exec (.idleSend n) s = .next s)
  ∧ (∀ e, ∃ t, exec (.replay n e) s = .next t ∧ t.out = s.out ++ [.resent n (x.buffer.dropWhile (· != e))]
      ∧ (getPort t n.val).replRecv = sat32 x.replRecv 1)
  ∧ (x.buffer ≠ [] → x.tries < 8 →
      ((s.clk.master - x.lastAdv).toNat < 800 → exec (.replayTimeout n) s = .next s)
      ∧ (800 ≤ (s.clk.master - x.lastAdv).toNat → ∃ t, exec (.replayTimeout n) s = .next t
          ∧ t.out = s.out ++ [.resent n x.buffer] ∧ (getPort t n.val).tries = x.tries + 1))

/-- R528 to R530, R603, R605 and R606: module time; R315: the watchdog's count. -/
def Obligations.ModuleTimeAdvancesAndIsSet : Prop := ∀ (s : State),
  (powered s = false → exec .tTick s = .next s)
  ∧ (powered s = true → s.clk.gated = true → exec .tTick s = .next { s with clk := { s.clk with master := s.clk.master + 1 } })
  ∧ (powered s = true → s.clk.gated = false → s.chk.toFence = [] → s.chk.detained = [] → s.fab.routersUe = [] → s.segs = [] →
      (∀ e ∈ s.ports, e.2.block = []) → (∀ e ∈ s.mcores, e.2.reads = []) → tblWf plc0 s.plcs = true →
      ∃ t, exec .tTick s = .next t ∧ t.clk.master = s.clk.master + 1 ∧ ∀ p : Plc, (getPlc s p.val).state = .running →
        (getPlc t p.val).watchdog = if watchdogCounts s p.val && !outputHeld s p.val then min 65536 ((getPlc s p.val).watchdog + 16)
          else (getPlc s p.val).watchdog)
  ∧ (∀ (n : Port) (t1 : BitVec 128) (k2 k3 : BitVec 4) (d : BitVec 16), (getPort s n.val).state = .up → d.toNat ≤ 200 →
      ((∀ l, (getPort s n.val).lastSync = some l → 10000 ≤ (s.clk.master - l).toNat) → ∃ t, exec (.syncReq n t1 k2 d k3) s = .next t
          ∧ t.out = s.out ++ [.syncResp n t1 (s.clk.master ++ k2 ++ (0 : BitVec 60)) ((s.clk.master + d.setWidth 64) ++ k3 ++ (0 : BitVec 60))]
          ∧ (getPort t n.val).lastSync = some s.clk.master)
      ∧ (∀ l, (getPort s n.val).lastSync = some l → (s.clk.master - l).toNat < 10000 → exec (.syncReq n t1 k2 d k3) s = .next s))
  ∧ (∀ (n : Port) (a : Word), (getPort s n.val).state = .up →
      ((a = 0 ∨ 2 ^ 40 < a.toNat) → exec (.setTime n a) s = .next (putOut s (.setResp n 2)))
      ∧ (1 ≤ a.toNat → a.toNat ≤ 2 ^ 40 → s.clk.setOk = false → exec (.setTime n a) s = .next (putOut s (.setResp n 1)))
      ∧ (1 ≤ a.toNat → a.toNat ≤ 2 ^ 40 → s.clk.setOk = true → exec (.setTime n a) s
          = .next (putOut { s with clk := { s.clk with master := s.clk.master + a } } (.setResp n 0))))
  ∧ (tblWf 0 s.clk.dies = true → ∃ t, exec .dieTimeCheck s = .next t ∧ t.clk.master = s.clk.master
      ∧ (∀ d, dieTime t d = s.clk.master.toNat) ∧ t.rpt.next = s.rpt.next + BitVec.ofNat 32 s.clk.dies.length)

/-- R585 to R595: the timing port. -/
def Obligations.ClocksStartOnALockedPort : Prop := ∀ (s : State) (n : Port),
  (∀ (lanes : Word) (trim : Bool) (locked : BitVec 32),
      (s.clk.gated = false → exec (.coldStart lanes trim locked) s = .next s)
      ∧ (powered s = true → s.clk.gated = true → s.pwr.linkRst = true → ∃ t, exec (.coldStart lanes trim locked) s = .next t
          ∧ t.clk.fio = true ∧ t.clk.fineTrim = trim
          ∧ (let l := bits lanes.toNat (2 * n.val + 1) (2 * n.val)
             bit locked.toNat n.val = true → l ≠ 0 → fusedOff s n.val = false → (getPort s n.val).state ≠ .fenced →
             (getPort s n.val).locked = 0 → (getPort t n.val).locked = BitVec.ofNat 2 l ∧ t.clk.waitLock.isSome = true
               ∧ (s.clk.waitLock = none → t.clk.waitLock = some s.clk.master))))
  ∧ (∀ t0, powered s = true → s.clk.state = .locking → s.clk.waitLock = some t0 → lowestPort (isLocked s) = some n.val →
      let all := (upFrom 0 32).all fun m => fusedOff s m || isLocked s m
      (all = false → (s.clk.master - t0).toNat < 1000000 → exec .timingPortChoice s = .next s)
      ∧ ((all = true ∨ 1000000 ≤ (s.clk.master - t0).toNat) → ∃ t, exec .timingPortChoice s = .next t ∧ t.clk.state = .locked
          ∧ t.clk.timing = n ∧ t.clk.gated = false ∧ t.clk.fio = false ∧ t.clk.choice = false ∧ t.clk.setOk = true
          ∧ t.clk.master = s.clk.master ∧ (∀ d, dieTime t d = s.clk.master.toNat) ∧ { t with clk := s.clk } = s))
  ∧ ((getPort s n.val).state ≠ .up → exec (.chooseTimingPort n) s = .next s)
  ∧ ((getPort s n.val).state = .up → exec (.chooseTimingPort n) s = .next { s with clk := { s.clk with
      choice := true, chosen := n, state := if s.clk.timing ≠ n ∧ s.clk.state = .locked then .handover else s.clk.state } })
  ∧ exec .withdrawTimingPort s = .next { s with clk := { s.clk with choice := false, chosen := 0 } }
  ∧ ((s.clk.state = .locked ∨ s.clk.state = .handover) → handoverTarget s = some n.val →
      (exec (.handover n false false) s = .next { s with clk := { s.clk with
          timing := n, handovers := sat16 s.clk.handovers 1, state := .locked } })
      ∧ (exec (.handover n true false) s = .next { s with clk := { s.clk with state := .locked } })
      ∧ ∀ b, powered s = true → s.clk.gated = false → ∃ t, exec (.handover n b true) s = .next t ∧ t.clk.gated = true
          ∧ t.clk.state = .coast ∧ t.clk.losses = sat16 s.clk.losses 1 ∧ t.clk.timing = s.clk.timing)

/-- R597 to R602 and R877: losing the reference and relocking. -/
def Obligations.ReferenceLossStopsAndRelockResumes : Prop := ∀ (s : State) (cause : SourceCause),
  let lost := fun (t : State) => t.clk.gated = true ∧ t.clk.state = .coast ∧ t.clk.fio = true ∧ t.clk.losses = sat16 s.clk.losses 1
    ∧ t.pwr.selfRef = true ∧ t.fab.pending = false
    ∧ ∀ p : Plc, (getPlc s p.val).state = .running → (getPlc t p.val).state = .recovering ∧ (getPlc t p.val).gatesShut = true
        ∧ tget 0 t.rcv.causes p.val = 5
        ∧ (tblWf core0 s.cores = true → ∀ u, (getCore s u).plc = some p → (getCore t u).run = .stopped ∨ (getCore t u).run = .fenced)
  (powered s = true → s.clk.gated = false →
      (s.exm.shutdown ≠ 1 → ∃ t, exec (.sourceFailure cause) s = .next t ∧ lost t ∧ t.ports = s.ports)
      ∧ (tblWf port0 s.ports = true → ∃ t, exec .linkReset s = .next t ∧ lost t ∧ t.pwr.linkRst = false ∧ ∀ n : Port,
          ((getPort s n.val).state ≠ .fenced → (getPort t n.val).state = .untrained) ∧ (getPort t n.val).locked = 0
            ∧ ((getPort s n.val).state = .fenced → (getPort t n.val).state = .fenced)))
  ∧ exec .linkResetRelease s = .next { s with pwr := { s.pwr with linkRst := true } }
  ∧ (∀ k : Nat, powered s = true → s.clk.gated = true → s.clk.state = .coast →
      (relockPort s = none → exec (.relock k) s = .next s)
      ∧ ∀ n : Port, relockPort s = some n.val → ∃ t, exec (.relock k) s = .next t ∧ t.clk.master = s.clk.master + BitVec.ofNat 64 k
          ∧ t.clk.gated = false ∧ t.clk.state = .locked ∧ t.clk.timing = n ∧ (∀ d, dieTime t d = t.clk.master.toNat)
          ∧ t.fab.drainFrom = some t.clk.master ∧ ∀ m : Port, (getPort s m.val).state = .up → (getPort t m.val).state = .training)

/-- R542 to R568: rings and descriptors; R575: counters; R273 and R687: two commands of ring 8. -/
def Obligations.RingsCarryDescriptors : Prop := ∀ (s : State) (r : Plc) (w : BitVec 512),
  let x := getRing s r.val
  let done := fun (pre : List Out) (t : State) (ring : Nat) (index : BitVec 32) (status reason : Nat) (w1 w2 : Word) => ∃ k w0,
    t.out = s.out ++ pre ++ [.completion (9 + ring) k w0 w1 w2 s.clk.master] ∧ bits w0.toNat 63 62 = status
      ∧ bits w0.toNat 55 48 = reason ∧ bits w0.toNat 31 0 = index.toNat
  tblWf [] s.descs = true →
  (∀ v : Word, powered s = true → s.sec.fwRunning.isSome = true → s.fuses.life ≠ 4 → tblWf ring0 s.rings = true →
      let y := { x with window := BitVec.ofNat 9 (bits v.toNat 61 53), offset := BitVec.ofNat 36 (bits v.toNat 35 0), prod := 0, cons := 0, enable := true }
      let i : Fin 19 := Fin.ofNat 19 r.val
      bits v.toNat 52 36 = 0 →
        (x.enable = true → ∃ t, exec (.hifRing i 0 v) s = .next t ∧ getRing t r.val = { x with enable := bit v.toNat 63 }
          ∧ { t with rings := s.rings } = s)
        ∧ (x.enable = false → bit v.toNat 63 = true →
            (ringFieldsOk s r.val y = true → ∃ t, exec (.hifRing i 0 v) s = .next t ∧ getRing t r.val = y)
            ∧ (ringFieldsOk s r.val y = false → exec (.hifRing i 0 v) s = .next s)))
  ∧ (mayFetch s r.val = false → ∀ ok, exec (.descriptorFetch (Fin.ofNat 9 r.val) ok w) s = .next s)
  ∧ (mayFetch s r.val = true →
      (∃ t, exec (.descriptorFetch (Fin.ofNat 9 r.val) true w) s = .next t ∧ (getRing t r.val).cons = x.cons + 1
        ∧ getDescs t r.val = getDescs s r.val ++ [freshDesc x.cons w s.clk.master] ∧ t.out = s.out)
      ∧ ∃ t, exec (.descriptorFetch (Fin.ofNat 9 r.val) false w) s = .next t ∧ done [] t r.val x.cons 1 0x24 0 0
        ∧ getDescs t r.val = getDescs s r.val)
  ∧ (∀ index d, (getDescs s r.val).find? (fun e => e.index == index && !e.checked) = some d →
      (∀ st reason, fetchVerdict s r.val d = some (st, reason) → ∃ t, exec (.run r index) s = .next t
          ∧ done [] t r.val index st reason d.seq d.tag ∧ ∀ e ∈ getDescs t r.val, e.index ≠ index)
      ∧ (fetchVerdict s r.val d = none → ∃ t, exec (.run r index) s = .next t ∧ t.out = s.out
          ∧ getDescs t r.val = (getDescs s r.val).map fun e => if e.index = index then { e with checked := true } else e))
  ∧ (∀ d h input, (getDescs s r.val).find? (fun e => e.state == .fetched) = some d → d.checked = true → mayDeliver s r.val = true →
      (getPlc s r.val).img.bind (·.host) = some h →
      let next := (getPlc s r.val).nextSample
      let read := Out.hostRead (Fin.ofNat 32 (dataPort s r.val d)) (BitVec.ofNat 9 (bits (dword d 2) 63 55))
        (BitVec.ofNat 36 (bits (dword d 2) 35 0)) (ceilDiv (d.n * h.inBytes) 512)
      (∃ t, exec (.inputDelivery r true input) s = .next t ∧ (getPlc t r.val).nextSample = next + d.n
          ∧ (getPlc t r.val).batches.getLast? = some (next, d.n) ∧ t.out = s.out ++ [read]
          ∧ ∃ e ∈ getDescs t r.val, e.index = d.index ∧ e.tag0 = next % 16384 ∧ e.first = next ∧ e.state ≠ .fetched)
      ∧ (∀ k v, h.intake = [k] → h.lead = true → 0 < k.rows → Sendable s (12800 + x.port.toNat) k.dst.toNat 1 v →
          ∃ t, exec (.inputDelivery r true input) s = .next t ∧ ∃ a ∈ t.fab.flight, a.ptype = 1 ∧ a.dst = k.dst
            ∧ a.rows.head? = some { data := BitVec.ofNat 4096 (leadRow d (next % 16384)), poison := 0 })
      ∧ ∃ t, exec (.inputDelivery r false input) s = .next t ∧ done [read] t r.val d.index 1 0x24 d.seq d.tag)
  ∧ (mayDeliver s r.val = false → ∀ ok input, exec (.inputDelivery r ok input) s = .next s)
  ∧ (∀ (i : Nat) (n : Port) (k : Packet) (c : Ctx), s.fab.flight[i]? = some k → k.toPort = some n → k.pos = k.dstSite → k.ptype = 1 →
      k.dst.toNat = 12832 + r.val → accepts s k = true → Taken s k → transitPoison k = false → findCtx (getEp s (12800 + n.val)) k.src = some c → k.seq = c.expected →
      c.held = [] → c.refuse = none → c.progress = 0 → k.fromPort = none →
      let m := bits k.op.toNat 77 72 + 1
      let off := bits k.op.toNat 127 112 + 65536 * bits k.op.toNat 71 67
      (tagDesc s r.val (bits k.op.toNat 103 90) = none → ∃ t, exec (.outputWrite i clean) s = .next t ∧ Answered t k (some 0x4D))
      ∧ ∀ d, tagDesc s r.val (bits k.op.toNat 103 90) = some d →
          let bad := bits k.op.toNat 105 104 ≠ 0 ∨ outRowsOf s r.val d < off + m ∨ (upFrom off m).any (setHas d.rows) = true
          (bad → ∃ t, exec (.outputWrite i clean) s = .next t ∧ Answered t k (some 0x4E) ∧ t.descs = s.descs)
          ∧ (¬bad → descLive d = true → (getPort s n.val).outRows + k.rows.length ≤ 256 →
              ∃ t, exec (.outputWrite i clean) s = .next t ∧ Answered t k none ∧ ∃ e ∈ getDescs t r.val, e.index = d.index
                ∧ e.rows = (upFrom off k.rows.length).foldl setAdd d.rows
                ∧ e.state = if e.rows.length = outRowsOf s r.val d then .gated else d.state))
  ∧ (∀ d t0, getDescs s r.val = [d] → d.state = .gated → d.lastOut = some t0 → d.outAcks = 0 → (getPlc s r.val).gatesShut = false →
      tget none s.rcv.runs r.val = none →
      ((s.clk.master - t0).toNat < 8 → exec (.commitGateOpen r d.index) s = .next s)
      ∧ (8 ≤ (s.clk.master - t0).toNat → d.poison = false → d.hostBad = false → (getPlc s r.val).state = .running →
          ∃ t, exec (.commitGateOpen r d.index) s = .next t ∧ done [] t r.val d.index 0 0 d.seq d.tag ∧ getDescs t r.val = []
            ∧ (getPlc t r.val).committed = (getPlc s r.val).committed + BitVec.ofNat 64 d.n
            ∧ doneBefore (tget seqRec0 t.seqs r.val) d.seq = true)
      ∧ (8 ≤ (s.clk.master - t0).toNat → d.poison = true → ∃ t, exec (.commitGateOpen r d.index) s = .next t
          ∧ done [] t r.val d.index 1 0x25 d.seq d.tag ∧ t.seqs = s.seqs))
  ∧ (let p := getPlc s r.val
     let e := getRing s 18
     (p.changed = false → exec (.countersEvent r) s = .next s)
     ∧ (p.changed = true → p.state = .running → 10000000 ≤ (s.clk.master - p.lastEvent).toNat → e.enable = true → s.evDropped = 0 →
        ringUsed e + 2 ≤ ringSize e → ∃ t k w0 l, exec (.countersEvent r) s = .next t
          ∧ t.out = s.out ++ [.event k w0 s.clk.master l] ∧ bits w0.toNat 55 48 = 2 ∧ l[6]? = some p.committed ∧ l[7]? = some p.discarded
          ∧ (getPlc t r.val).changed = false ∧ (getPlc t r.val).lastEvent = s.clk.master))
  ∧ (∀ c, nextOf s 4 = some c → ∃ t, exec .acceptGrade s = .next t ∧ t.brg = { s.brg with accepted := true }
      ∧ done [] t 8 c.index 0 0 (BitVec.ofNat 64 (cmdJob c)) 0)
  ∧ ∀ c, nextOf s 6 = some c → tblWf core0 s.cores = true → let n := bits (cmdWord c 0) 47 32
      ∃ t, exec .closePass s = .next t ∧ done [] t 8 c.index 0 0 (BitVec.ofNat 64 (cmdJob c)) 0
        ∧ (∀ d ∈ t.passDir, d.1.toNat ≠ n) ∧ ∀ u, (getCore t u).passes = (getCore s u).passes.filter fun h => h.number.toNat != n

/-- R617, R631 to R639, R651, R785 and R882 to R884: starts, wakes, trips and sensors. -/
def Obligations.WakesStartTheModule : Prop := ∀ (s : State),
  (s.pwr.state = .off → ∀ main, ∃ t, exec (.powerOn main) s = .next t ∧ t.pwr.state = (if main then .startup else .recess)
      ∧ t.pwr.wakeSrc = .powerOn ∧ t.pwr.wakes = 0 ∧ t.pwr.wakeEn = 3 ∧ t.pwr.wakeAddr = 0x4B ∧ t.pwr.t0Period = 1000
      ∧ (main = true → t.clk.master.toNat = (startTime s).toNat ∧ t.clk.gated = true))
  ∧ (s.pwr.state = .recess → s.pwr.latched = none → s.pwr.trip = none →
      (∀ a, exec (.twoWireWake a) s = .next (if bit s.pwr.wakeEn.toNat 0 ∧ a = s.pwr.wakeAddr then
          { s with pwr := { s.pwr with latched := some (.twoWire, 0) } } else s))
      ∧ ∀ n : Port, exec (.linkSignalWake n) s = .next (if bit s.pwr.wakeEn.toNat 1 ∧ fusedOff s n.val = false then
          { s with pwr := { s.pwr with latched := some (.link, BitVec.ofNat 5 n.val) } } else s))
  ∧ (s.pwr.state ≠ .recess → ∀ a, exec (.twoWireWake a) s = .next s)
  ∧ (∀ src port, s.pwr.state = .recess → s.pwr.trip = none → s.pwr.latched = some (src, port) → src ≠ .powerOn →
      (∃ t, exec (.wake true) s = .next t ∧ t.pwr.state = .startup ∧ t.pwr.wakeSrc = src ∧ t.pwr.wakePort = port
        ∧ t.pwr.wakes = sat8 s.pwr.wakes 1 ∧ t.pwr.latched = none ∧ t.clk.gated = true)
      ∧ ∃ t, exec (.wake false) s = .next t ∧ t.pwr.state = .recess ∧ t.pwr.wakeSrc = src ∧ t.pwr.latched = none)
  ∧ (s.pwr.state = .recess → s.pwr.mainSag = true → s.pwr.trip = none → ∃ t, exec .mainReturn s = .next t
      ∧ t.pwr.state = .startup ∧ t.pwr.wakeSrc = .saveResume ∧ t.pwr.wakes = sat8 s.pwr.wakes 1 ∧ t.pwr.mainSag = false)
  ∧ (s.pwr.trip = none →
      (s.pwr.state ≠ .off → ¬(s.pwr.state = .save ∧ s.pwr.saveCause = 3) → ∃ t, exec (.brownOut true) s = .next t ∧ t.pwr.state = .startup
        ∧ t.pwr.wakeSrc = .brownOut ∧ t.pwr.wakes = sat8 s.pwr.wakes 1 ∧ t.cores = [] ∧ t.pwr.wakeAddr = s.pwr.wakeAddr
        ∧ t.pwr.runMark = s.pwr.runMark)
      ∧ (s.pwr.state = .save → s.pwr.saveCause = 3 → ∃ t, exec (.brownOut true) s = .next t ∧ t.pwr.state = .off)
      ∧ (powered s = true → s.pwr.t0Period.toNat * 100000 ≤ (s.clk.master - s.pwr.t0Start).toNat →
          ∃ t, exec (.t0Expiry true) s = .next t ∧ t.pwr.state = .startup ∧ t.pwr.wakeSrc = .watchdog ∧ t.cores = []))
  ∧ ((s.clk.master - s.pwr.t0Start).toNat < s.pwr.t0Period.toNat * 100000 → exec (.t0Expiry true) s = .next s)
  ∧ (powered s = true → ∃ t, exec .thermalTrip s = .next t ∧ t.pwr.state = .recess ∧ t.pwr.trip = some s.clk.master
      ∧ t.sbd.cause = (s.sbd.cause &&& 0x80) ||| 0x80 ∧ t.pwr.slotA = s.pwr.slotA ∧ t.pwr.slotB = s.pwr.slotB)
  ∧ (∀ t0, s.pwr.trip = some t0 →
      (s.pwr.latched = none → exec (.tripLatchClear true) s = .next { s with pwr := { s.pwr with trip := none } })
      ∧ ∀ src port, s.pwr.latched = some (src, port) → ∃ t, exec (.tripLatchClear true) s = .next t ∧ t.pwr.trip = none
          ∧ t.pwr.state = .startup ∧ t.pwr.wakeSrc = src)
  ∧ ∀ (r : Region) (a b c : Int) (v : Nat), powered s = true → tblWf 0 s.rpt.temps = true → tblWf 0 s.rpt.stackTemps = true →
      tblWf 0 s.rpt.volts = true → ∃ t, exec (.sensorRefresh r a b c v) s = .next t ∧ tget 0 t.rpt.temps r.val = a
        ∧ tget 0 t.rpt.stackTemps r.val = b ∧ t.rpt.procTemp = c ∧ tget 0 t.rpt.volts r.val = v
        ∧ ((800 ≤ a ∨ 800 ≤ c ∨ 760 ≤ b) → bit t.sbd.cause.toNat 1 = true)

/-- R619 to R628, R640 to R647, R805, R875 and R876: saves, naps and waves. -/
def Obligations.SavesNapsAndWaves : Prop := ∀ (s : State) (r : Region),
  let newest := newestSlot s
  let saving := fun (t : State) (cause : BitVec 2) => t.pwr.state = .save ∧ t.pwr.saveCause = cause ∧ t.pwr.t0Save = true
    ∧ ∃ slot : Bool, t.pwr.saving = some (s.clk.master, slot, cause)
      ∧ (∀ b x, newest = some (b, x) → slot = !b ∧ (if b then t.pwr.slotB else t.pwr.slotA) = x)
      ∧ let y := if slot then t.pwr.slotB else t.pwr.slotA
        y.valid = false ∧ y.time = s.clk.master ∧ y.counter = s.sec.counter ∧ y.trims = s.chk.trims ∧ y.deltas = s.brg.seat
  let lost := fun (t : State) => t.pwr.state = .recess ∧ t.pwr.slotA = s.pwr.slotA ∧ t.pwr.slotB = s.pwr.slotB ∧ t.cores = []
  let fenced := fun (t : State) => bit t.pwr.railOff.toNat r.val = true ∧ bit t.brg.regionsOut.toNat r.val = true
    ∧ (fusedOff s r.val = false → (getPort t r.val).state = .fenced)
  let drains := fun (t : State) (ph : PwrPhase) => t.pwr.phase = ph
    ∧ ∀ p : Plc, (getPlc s p.val).state = .running → (getPlc t p.val).drain.isSome = true
  (powered s = true → s.pwr.armed = true → (∃ t, exec .mainSag s = .next t ∧ saving t 2)
      ∧ (∃ t, exec .auxiliarySag s = .next t ∧ saving t 3) ∧ ∃ t, exec .pgInLow s = .next t ∧ saving t 2)
  ∧ (powered s = true → s.pwr.armed = false → (∃ t, exec .mainSag s = .next t ∧ lost t) ∧ (∃ t, exec .pgInLow s = .next t ∧ lost t)
      ∧ exec .auxiliarySag s = .next s)
  ∧ (∀ t0 slot cause header d, s.pwr.saving = some (t0, slot, cause) → ∃ t, exec (.saveWindowEnd header d) s = .next t
      ∧ t.pwr.saving = none ∧ t.pwr.saveRes = (if header then 1 else 2) ∧ t.pwr.saveDur = d
      ∧ t.pwr.state = (if cause = 3 then .save else .recess)
      ∧ (let x := if slot then s.pwr.slotB else s.pwr.slotA
         (if slot then t.pwr.slotB else t.pwr.slotA) = if header then { x with valid := true } else x))
  ∧ (s.pwr.request = 0 → s.pwr.phase = .run → requestReady s = true →
      (∃ t, exec .nap s = .next t ∧ drains t .enteringNap ∧ t.pwr.request = 1) ∧ ∃ t, exec .recess s = .next t ∧ drains t .shuttingDown)
  ∧ (s.pwr.request = 0 → s.pwr.phase = .run → requestReady s = false →
      exec .nap s = .next { s with pwr := { s.pwr with request := 1 } } ∧ exec .recess s = .next { s with pwr := { s.pwr with request := 3 } })
  ∧ (s.pwr.phase = .enteringNap → drainedAll s = true → ∃ t, exec .nap s = .next t ∧ t.pwr.state = .nap ∧ t.pwr.phase = .nap
      ∧ t.pwr.selfRef = true ∧ t.pwr.request = 0 ∧ t.scratch = store0 ∧ t.hbm = s.hbm)
  ∧ (s.pwr.request = 0 → s.pwr.phase = .nap → ∃ t, exec .leaveNap s = .next t ∧ t.pwr.phase = .leavingNap ∧ t.pwr.request = 2)
  ∧ (s.pwr.phase = .leavingNap → s.pwr.wavesEnd = true → ∃ t, exec .leaveNap s = .next t ∧ t.pwr.state = .run ∧ t.pwr.phase = .run
      ∧ t.pwr.selfRef = false ∧ t.pwr.request = 0 ∧ t.fab.drainFrom = some s.clk.master)
  ∧ (s.pwr.phase = .shuttingDown → drainedAll s = true →
      (s.exm.shutdown = 0 → s.exm.skip = true → ∃ t, exec .recess s = .next t ∧ t.rpt.tail = [] ∧ t.exm.shutdown = 2
        ∧ t.exm.status.head? = some (BitVec.ofNat 64 (5 * 2 ^ 56 + 2 ^ 54)))
      ∧ (s.exm.shutdown = 2 → ∃ t, exec .recess s = .next t ∧ saving t 1))
  ∧ (let sub := tget 0 s.pwr.waveSub r.val
     let since := (s.clk.master - s.pwr.waveAt.getD s.clk.master).toNat
     wavesDue s = true →
      (sub = 0 → (r.val = 0 ∨ tget 0 s.pwr.waveSub (r.val - 1) ≠ 0) → 25000 * r.val ≤ since →
        ∃ t, exec (.waveSlot r) s = .next t ∧ tget 0 t.pwr.waveSub r.val = 1)
      ∧ (since < 25000 * r.val → exec (.waveSlot r) s = .next s)
      ∧ (∀ n : Fin 5, sub = n.val + 1 → 25000 * r.val + 5000 * n.val ≤ since → s.pwr.tripsRecorded = false →
          ∃ t, exec (.subWave r n) s = .next t ∧ tget 0 t.pwr.waveSub r.val = n.val + 2
            ∧ (t.pwr.wavesEnd = true ↔ r.val = 31 ∧ n.val = 4))
      ∧ (2 ≤ sub → bit s.pwr.railOff.toNat r.val = false → bit s.brg.regionsOut.toNat r.val = false → ∃ t, exec (.railRegulationTimeout r) s = .next t ∧ fenced t))
  ∧ (powered s = true → (railUp s r.val = true → bit s.brg.regionsOut.toNat r.val = false →
        ∀ x ∈ [RailLoss.region r, .spine r], ∃ t, exec (.railLeavesRegulation x) s = .next t ∧ fenced t)
      ∧ exec (.railLeavesRegulation .other) s = .next { s with pwr := { s.pwr with unreg := true } })

/-- R660 to R679 and R804 to R816: bring-up. -/
def Obligations.StartsGradeTheModule : Prop := ∀ (s : State),
  let bad := fun (t : State) (saved : Settings) => t = { s with brg := { s.brg with savedBad := sat8 s.brg.savedBad 1, saved := saved } }
  (∀ (u : Site) (link saved : Bool) (failed : List Nat), linkUsable s u.val = true → railUp s (regionOf u.val) = true →
      let key := edgeLinkKey u.val (ofBool link)
      linkFree s key = true → tblWf LinkMode.full s.brg.links = true →
      let n := (failed.filter fun k => decide (2 < k)).length
      let sv := saved && s.brg.kind == 1 && (tget none s.brg.saved.links key).isSome
      (sv = true → 0 < n → ∃ t, exec (.dieLinkTraining u link saved failed) s = .next t
        ∧ bad t { s.brg.saved with links := tset none s.brg.saved.links key none })
      ∧ ((sv = false ∨ n = 0) → ∃ t, exec (.dieLinkTraining u link saved failed) s = .next t
          ∧ (tget none t.brg.saved.links key).isSome = true ∧ tget .full t.brg.links key = (if n = 0 then .full else if n ≤ 4 then .half else .disabled)))
  ∧ (∀ (t0 : Tile) (ch saved : Bool) (pins : List Nat) (ok : Bool), starting s = true → s.brg.rolled = false → railUp s (t0.val / 16) = true →
      let key := 2 * t0.val + ofBool ch
      let sv := saved && chanSaved s t0.val ch
      (ok = true → pins.length ≤ 2 → (sv = true → exec (.hbmTraining t0 ch saved pins ok) s = .next s)
        ∧ (sv = false → ∃ t x, exec (.hbmTraining t0 ch saved pins ok) s = .next t ∧ tget none t.brg.saved.chans key = some x
            ∧ x.repairs = pins ∧ x.temp = tget 0 s.rpt.stackTemps (t0.val / 16) ∧ t.brg.units = s.brg.units))
      ∧ ((ok = false ∨ 2 < pins.length) → (sv = true → ∃ t, exec (.hbmTraining t0 ch saved pins ok) s = .next t
            ∧ bad t { s.brg.saved with chans := tset none s.brg.saved.chans key none })
          ∧ (sv = false → ∃ t, exec (.hbmTraining t0 ch saved pins ok) s = .next t ∧ isFenced t (tileSite t0.val) = true)))
  ∧ (∀ f : ExamFindings,
      let recorded := fun (t : State) => (∃ w l, t.exm.status = w :: s.clk.master :: f.lanesFailed :: l
          ∧ bits w.toNat 63 56 = (if !f.complete then 3 else if f.diesFailed = 0 ∧ f.regsFailed = 0 ∧ f.moduleFail = false then 1 else 2))
        ∧ t.fab.drainFrom = some s.clk.master ∧ (∀ l, bit f.lanesFailed.toNat l = true → tget none t.brg.saved.lanes l = none)
        ∧ ∀ u ∈ f.unitsFailed, (kindOf s u.val).isSome = true → u ∈ t.rpt.fdm
      (s.pwr.phase = .shuttingDown → s.exm.shutdown = 1 → ∃ t, exec (.exam f) s = .next t ∧ recorded t ∧ t.exm.shutdown = 2)
      ∧ (s.pwr.phase ≠ .shuttingDown → starting s = true → examDue s = true → s.brg.examOk = false → s.brg.rolled = false →
          s.sec.fwRunning.isSome = true → ∃ t, exec (.exam f) s = .next t ∧ recorded t
            ∧ (∀ r : Region, bit f.regsFailed.toNat r.val = true → bit t.brg.regionsOut.toNat r.val = true)
            ∧ (f.moduleFail = false → t.brg.examOk = true) ∧ (f.moduleFail = true → t.clk.safe = true)))
  ∧ (starting s = true → s.brg.rolled = false → s.sec.fwRunning.isSome = true → (examDue s = false ∨ s.brg.examOk = true) →
      ∀ failed : List Site, let rolled := { s with brg := { s.brg with rolled := true, failed := failed.filter fun u => (kindOf s u.val).isSome } }
        exec (.rollCall failed [] []) s = .next rolled
        ∧ (∀ r : Region, ∃ t, exec (.rollCall failed [r] []) s = .next t ∧ t.brg.rolled = true ∧ bit t.brg.regionsOut.toNat r.val = true)
        ∧ ∀ (n : MNum) (col : Bool) (g : Fin 8) (i : Nat), let u := mcoreSite n.val
            (groupFree (getM s u) col g.val = true → ∃ t, exec (.rollCall failed [] [(n, col, g, i)]) s = .next t
              ∧ getM t u = { setSkip (getM s u) col g.val i with arrayBad := (getM s u).arrayBad ++ [(col, g, i)] })
            ∧ (groupFree (getM s u) col g.val = false → ∃ t, exec (.rollCall failed [] [(n, col, g, i)]) s = .next t
              ∧ t.brg.failed = rolled.brg.failed ++ [toSite u]))
  ∧ (starting s = true → s.brg.rolled = true →
      (s.brg.phase ≠ 5 → ∃ t, exec .reconcile s = .next t ∧ t.brg.phase = 5 ∧ t.fab.drainFrom = some s.clk.master
          ∧ t.brg.below = (t.brg.cause != 0) ∧ ∀ u ∈ s.fuses.bad, (kindOf s u.val).isSome = true → isFenced t u.val = true)
      ∧ (s.brg.phase = 5 → s.fab.drainFrom = none → s.fab.tab0.written = true → ∃ t, exec .reconcile s = .next t
          ∧ t.brg.phase = 6 ∧ t.pwr.state = .run ∧ t.pwr.phase = .run ∧ t.pwr.armed = true ∧ t.pwr.runMark = true)
      ∧ (s.brg.phase = 5 → s.fab.drainFrom.isSome = true → exec .reconcile s = .next s))

/-- R695, R696, R708, R709, R715 to R718, R720 to R723 and R729 to R731: checking. -/
def Obligations.CheckingCountsAndLimits : Prop := ∀ (s : State),
  -- the segment that a unit's quiz comes to, no change of rotation, and nothing else that the proctor has still to settle
  let calm := s.chk.toFence = [] ∧ (∀ e ∈ s.chk.detained, e.out = true) ∧ nowT s / 2160000000000 = s.chk.rotation
  let quizOf := fun (u : Site) => tget ({ done := 0, bad := false } : Quiz) s.chk.quizzes u.val
  let last := fun (u : Site) => segmentCount (kindOf s u.val) ≤ (quizOf u).done + 1
  let right := fun (u : Site) (fixed : Word) => (quizOf u).bad = false ∧ fixed = Config.quizAnswer (kindCode (kindOf s u.val)) (quizOf u).done
  let agreed := fun (seeded : Word) => ∀ e ∈ s.chk.seeded, e.2.2 = seeded
  (∀ v : Word, powered s = true → s.sec.fwRunning.isSome = true →
      (v.toNat < 256 → bit v.toNat 0 = false → ∃ t, exec (.chkCtrl v) s = .next t ∧ t.chk.enables.toNat = bits v.toNat 6 1
        ∧ t.chk.void = (s.chk.void || bits v.toNat 6 1 != 63))
      ∧ (v.toNat < 2 ^ 48 → 3000 ≤ bits v.toNat 15 0 → bits v.toNat 15 0 ≤ s.chk.cap.toNat →
          exec (.pwrCap v) s = .next { s with chk := { s.chk with cap := BitVec.ofNat 16 (bits v.toNat 15 0) } })
      ∧ ((bits v.toNat 15 0 < 3000 ∨ s.chk.cap.toNat < bits v.toNat 15 0) → exec (.pwrCap v) s = .next s)
      ∧ (s.fuses.life ≠ 4 → bits v.toNat 63 62 = 2 → bits v.toNat 47 0 = 0 →
          (∀ u, siteOfId s (bits v.toNat 61 48) = some u → (kindOf s u).isSome = true → isFenced s u = false → isDetained s u = false →
            ∃ t, exec (.chkSuspect v) s = .next t ∧ t.chk.suspRes = 1 ∧ t.chk.suspId.toNat = bits v.toNat 61 48
              ∧ t.chk.suspects = sat16 s.chk.suspects 1)
          ∧ (siteOfId s (bits v.toNat 61 48) = none → ∃ t, exec (.chkSuspect v) s = .next t ∧ t.chk.suspRes = 2
              ∧ t.chk.suspects = s.chk.suspects)))
  ∧ (∀ (avg100 avg1000 mv : Nat) (hot : List Region), powered s = true →
      let cap := min s.chk.cap.toNat (min 5400 (110 * mv / 1000))
      (∀ r rest, 98 * cap < 100 * avg100 → s.chk.limitOrder = [] → hot = r :: rest → tget 0 s.chk.limitClk r.val < 2 →
        ∃ t, exec (.limiterSample avg100 avg1000 mv hot) s = .next t ∧ tget 0 t.chk.limitClk r.val = tget 0 s.chk.limitClk r.val + 1
          ∧ t.chk.limitOrder = [r] ∧ t.chk.lastLower = s.clk.master ∧ t.chk.ceiling.toNat = min 5400 (110 * mv / 1000))
      ∧ (∀ r rest, 100 * avg100 < 95 * cap → 100000 ≤ (s.clk.master - s.chk.lastFree).toNat → s.chk.limitOrder = r :: rest →
          tblWf 0 s.chk.limitClk = true → ∃ t, exec (.limiterSample avg100 avg1000 mv hot) s = .next t
            ∧ tget 0 t.chk.limitClk r.val = tget 0 s.chk.limitClk r.val - 1 ∧ t.chk.limitOrder = rest ∧ t.chk.inputHold = false))
  ∧ (nowT s / 360000000000 ≤ s.chk.hour → exec .pointBucketDrop s = .next s)
  ∧ (nowT s / 360000000000 = s.chk.hour + 1 → tblWf [] s.chk.points = true → ∃ t, exec .pointBucketDrop s = .next t
      ∧ t.chk.hour = s.chk.hour + 1 ∧ ∀ u, (tget [] s.chk.points u).any (· != 0) = true → (tget [] s.chk.points u).length ≤ 23 →
        tget [] t.chk.points u = 0 :: tget [] s.chk.points u)
  ∧ (∀ (u : Site) (o : Fin 16) (fixed seeded : Word), quizzable s u.val = true → isDetained s u.val = false →
      (segmentMay s u.val o.val = false → exec (.microQuiz u ⟨o, fixed, seeded⟩) s = .next s)
      ∧ (segmentMay s u.val o.val = true → calm →
        (¬last u →
            let bad := (quizOf u).bad || fixed != Config.quizAnswer (kindCode (kindOf s u.val)) (quizOf u).done
            let quizzes := tput s.chk.quizzes u.val { done := (quizOf u).done + 1, bad := bad }
            exec (.microQuiz u ⟨o, fixed, seeded⟩) s = .next { s with chk := { s.chk with quizzes := quizzes } })
        ∧ (last u → right u fixed → agreed seeded → (s.brg.waiting.any fun v => v.val == u.val) = false →
            ∃ t, exec (.microQuiz u ⟨o, fixed, seeded⟩) s = .next t ∧ u ∈ t.chk.quizzed ∧ t.chk.points = s.chk.points ∧ t.brg = s.brg)
        ∧ (last u → ¬right u fixed → agreed seeded → ∃ t, exec (.microQuiz u ⟨o, fixed, seeded⟩) s = .next t
            ∧ t.chk.suspects = sat16 s.chk.suspects 1)
        ∧ (∀ a b w, last u → right u fixed → a ≠ u → b ≠ u → a ≠ b → w ≠ seeded → kindOf s a.val = kindOf s u.val →
            kindOf s b.val = kindOf s u.val → s.chk.seeded = [(a, quizSeed s, w), (b, quizSeed s, w)] →
            ∃ t, exec (.microQuiz u ⟨o, fixed, seeded⟩) s = .next t ∧ t.chk.suspects = sat16 s.chk.suspects 1)))
  ∧ ∀ (u : Site) (d : Detained), (s.chk.detained.find? fun e => e.unit.val == u.val) = some d →
      let at_ := fun (t : State) => t.chk.detained.find? fun e => e.unit.val == u.val
      let first := tfind s.chk.quizzes u.val = none
      let at0 := if tfind s.chk.quizzes u.val = none then s.clk.master else d.lastQuiz
      ∀ (o : Fin 16) (fixed seeded : Word),
      (first → (s.clk.master - d.lastQuiz).toNat < 3000000000 → exec (.detentionQuiz u ⟨o, fixed, seeded⟩) s = .next s)
      ∧ (quizzesRun s = true → segmentMay s u.val o.val = true → (first → 3000000000 ≤ (s.clk.master - d.lastQuiz).toNat) → calm →
          (¬last u → ∃ t, exec (.detentionQuiz u ⟨o, fixed, seeded⟩) s = .next t ∧ at_ t = some { d with lastQuiz := at0 }
            ∧ ∃ q, tfind t.chk.quizzes u.val = some q ∧ q.done = (quizOf u).done + 1)
          ∧ (last u → right u fixed → agreed seeded → d.clean < 63 → ∃ t, exec (.detentionQuiz u ⟨o, fixed, seeded⟩) s = .next t
            ∧ at_ t = some { d with clean := d.clean + 1, lastQuiz := at0 })
          ∧ (last u → right u fixed → agreed seeded → 63 ≤ d.clean → tblWf [] s.chk.points = true →
              ∃ t, exec (.detentionQuiz u ⟨o, fixed, seeded⟩) s = .next t ∧ isDetained t u.val = false
              ∧ pointSum t u.val = 0 ∧ isSpare t u.val = true)
          ∧ (last u → ¬right u fixed → agreed seeded → d.fails = 0 → ∃ t e, exec (.detentionQuiz u ⟨o, fixed, seeded⟩) s = .next t
              ∧ at_ t = some e ∧ e.fails = 1 ∧ e.clean = 0 ∧ e.lastQuiz = at0))

/-- R707, R747 to R756, R762 and R769 to R771: recovery. -/
def Obligations.RecoveryRunsItsSteps : Prop := ∀ (s : State) (p : Plc),
  let run := fun (t : State) => tget none t.rcv.runs p.val
  (∀ (code : Byte) (u : Site), powered s = true → s.clk.gated = false → run s = none → (getPlc s p.val).state = .running →
      (getPlc s p.val).drain = none →
      ((∀ f ∈ s.rcv.raised, ¬(f.code = code ∧ f.unit = u)) → exec (.recovery p (.detector code u)) s = .next s)
      ∧ ((∃ f ∈ s.rcv.raised, f.code = code ∧ f.unit = u) → ∃ t r, exec (.recovery p (.detector code u)) s = .next t ∧ run t = some r ∧ r.seq = s.rcv.nextSeq
        ∧ r.step = 1 ∧ r.cause = 1 ∧ r.acked = false ∧ (∃ f ∈ r.faults, f.code = code ∧ f.unit = u) ∧ t.rcv.nextSeq = s.rcv.nextSeq + 1
        ∧ (getPlc t p.val).state = .recovering ∧ ∃ d, (getPlc t p.val).drain = some d ∧ d.fault = true))
  ∧ (∀ r : Recovery, run s = some r →
      (r.acked = false → exec (.recoveryStepAck p) s = .next s)
      ∧ (r.acked = true → ∃ t, exec (.recoveryStepAck p) s = .next t
          ∧ (r.step = 9 → tblWf none s.rcv.runs = true → run t = none)
          ∧ (r.step ≠ 9 → run t = some { r with step := r.step + 1, attempt := 0, issued := s.clk.master, acked := false })
          ∧ (tblWf 0 s.rcv.lastAck = true → tget 0 t.rcv.lastAck p.val = r.seq ++ r.step ++ r.attempt))
      ∧ ((s.clk.master - r.issued).toNat < 2000 → exec (.recoveryStepTimeout p) s = .next s)
      ∧ (2000 ≤ (s.clk.master - r.issued).toNat → stepBusy s p.val r = false → s.clk.gated = false →
          (r.attempt.toNat < 2 → ∃ t, exec (.recoveryStepTimeout p) s = .next t
            ∧ run t = some { r with attempt := r.attempt + 1, issued := s.clk.master, acked := false })
          ∧ (2 ≤ r.attempt.toNat → (getPlc s p.val).state = .recovering → ∃ t, exec (.recoveryStepTimeout p) s = .next t
              ∧ (getPlc t p.val).state = .stopped))
      ∧ ∀ v : VoteResult, v.ok = true → s.clk.gated = false →
          (r.acked = true → exec (.stepExecute p v) s = .next s)
          ∧ (r.acked = false → s.rcv.done.contains (r.seq, r.step) = true → ∃ t, exec (.stepExecute p v) s = .next t
              ∧ run t = some { r with acked := true } ∧ t.plcs = s.plcs ∧ t.cores = s.cores)
          ∧ (r.acked = false → s.rcv.done.contains (r.seq, r.step) = false →
              (r.step = 1 → ∃ t, exec (.stepExecute p v) s = .next t ∧ run t = some { r with acked := true } ∧ (r.seq, r.step) ∈ t.rcv.done)
              ∧ (r.step = 3 → ∃ t, exec (.stepExecute p v) s = .next t
                  ∧ run t = some { r with vote := if r.faults.any (votes s p.val) then some v else none, acked := true })
              ∧ (∀ f, r.step = 4 → r.faults = [f] → isDetained s f.unit.val = false → rivalFirst s p.val r = false →
                  (f.code = 0x20 → ∃ t, exec (.stepExecute p v) s = .next t ∧ t.chk.suspects = sat16 s.chk.suspects 1)
                  ∧ ∀ a w o, f.code = 0x24 → votes s p.val f = true → arbOf s f = some a → r.vote = some w → consistent a.code o = true →
                      (w.unit.find? fun x => x.pc == bits a.rec0.toNat 52 43 && x.slot == bits a.rec0.toNat 55 53
                        && x.offset == a.offset - a.lag && decide (x.at_ ≤ 100000)) = some o →
                      ∃ t, exec (.stepExecute p v) s = .next t ∧ t.chk.arbCount = sat16 s.chk.arbCount 1
                        ∧ t.chk.suspects = sat16 s.chk.suspects 1)
              ∧ (r.step = 8 → r.cause ≠ 5 → ∃ t, exec (.stepExecute p v) s = .next t ∧ (getPlc t p.val).armed = some s.clk.master
                  ∧ run t = some { r with acked := true } ∧ (r.seq, r.step) ∈ t.rcv.done)))
  ∧ ∀ (v : Word) (id : BitVec 32) (u : Nat), powered s = true → s.sec.fwRunning.isSome = true → s.fuses.life ≠ 4 → s.brg.phase = 6 →
      s.clk.gated = false → bits v.toNat 45 0 = 0 → siteOfId s (bits v.toNat 59 46) = some u → (kindOf s u).isSome = true → id ≠ s.rcv.lastId →
      (bits v.toNat 63 60 = 9 → isFenced s u = false →
        (plcOf s u = none → ∃ t, exec (.fenceRequest v id) s = .next t ∧ isFenced t u = true
          ∧ t.rcv.result = 1 ∧ t.rcv.lastId = id)
        ∧ (isCoreKind (kindOf s u) = true → plcOf s u = some p.val → (getPlc s p.val).state = .running → (getPlc s p.val).drain = none →
            run s = none → ∃ t r, exec (.fenceRequest v id) s = .next t ∧ t.rcv.result = 3 ∧ run t = some r ∧ r.cause = 4
              ∧ r.planned = true ∧ r.unit = some (toSite u)))
      ∧ (bits v.toNat 63 60 = 10 →
          (isCoreKind (kindOf s u) = false → ∃ t, exec (.reseat v id) s = .next t ∧ t.rcv.result = 2 ∧ t.rcv.refusal = 4 ∧ t.brg = s.brg)
          ∧ (isCoreKind (kindOf s u) = true → plcOf s u = none → isPinned s u = false →
              (logicalOf s u = none → ∃ t, exec (.reseat v id) s = .next t ∧ t.rcv.result = 1 ∧ t.brg = s.brg)
              ∧ ∀ l, logicalOf s u = some l →
                (chooseSubstitute s none u = none → ∃ t, exec (.reseat v id) s = .next t ∧ t.rcv.result = 2 ∧ t.rcv.refusal = 3 ∧ t.brg = s.brg)
                ∧ ∀ w, chooseSubstitute s none u = some w → l ≠ w → ∃ t, exec (.reseat v id) s = .next t
                    ∧ t.rcv.result = 1 ∧ (toSite l, toSite w) ∈ t.brg.seat ∧ (isDetained s u = false → toSite u ∈ t.brg.waiting)))

/-- R469, R790 to R802, R824, R871 to R873, R880, R881 and R893: reports, the sideband, CONTROL packets and table descriptors. -/
def Obligations.ReportsAndSidebandAnswer : Prop := ∀ (s : State),
  let fw := powered s = true ∧ s.sec.fwRunning.isSome = true
  let grams := fun (n : Nat) => s.rpt.queue.take n
  let ms := nowT s / 100000
  let used := if s.rpt.moved.1 = ms then s.rpt.moved.2 else 0
  (∀ n : Fin 65, powered s = true → ∃ t, exec (.reportPersist n) s = .next t ∧ t.rpt.tail = s.rpt.tail.drop (min n.val (64 - used))
      ∧ t.rpt.moved = (ms, used + min (min n.val (64 - used)) s.rpt.tail.length)
      ∧ t.rpt.next = s.rpt.next ∧ t.rpt.queue = s.rpt.queue ∧ t.rpt.fdm = s.rpt.fdm)
  ∧ (∀ w rest, powered s = true → s.rpt.tail = w :: rest → w ≠ [] → used < 64 → ∃ t, exec (.reportPersist 1) s = .next t
      ∧ tget [] t.rpt.card (entrySeq w % 16384) = w ∧ t.rpt.stamp = (if s.rpt.stamp ≤ BitVec.ofNat 64 (entryStamp w) then BitVec.ofNat 64 (entryStamp w) else s.rpt.stamp)
      ∧ ∀ j, j ≠ entrySeq w % 16384 → tget [] t.rpt.card j = tget [] s.rpt.card j)
  ∧ (∀ w rest, s.rpt.queue = w :: rest →
      (mgtUp s = true → (∀ t0, s.rpt.lastGram = some t0 → 50000 ≤ (s.clk.master - t0).toNat) →
        (s.rpt.perGram.toNat ≤ s.rpt.queue.length ∨ s.rpt.flush.toNat * 100000 ≤ nowT s - entryStamp w) → 1 ≤ s.rpt.perGram.toNat →
        ∃ t, exec .datagram s = .next t ∧ t.rpt.queue = s.rpt.queue.drop s.rpt.perGram.toNat ∧ t.rpt.sent = sat32 s.rpt.sent 1
          ∧ t.rpt.gramSeq = s.rpt.gramSeq + 1 ∧ t.rpt.lastGram = some s.clk.master ∧ t.rpt.losses = s.rpt.losses
          ∧ t.out = s.out ++ [.datagram (gramHeader s (grams s.rpt.perGram.toNat).length (entrySeq w)) (grams s.rpt.perGram.toNat)])
      ∧ (mgtUp s = false → exec .datagram s = .next s)
      ∧ (∀ t0, s.rpt.lastGram = some t0 → (s.clk.master - t0).toNat < 50000 → exec .datagram s = .next s)
      ∧ (s.rpt.queue.length < s.rpt.perGram.toNat → nowT s - entryStamp w < s.rpt.flush.toNat * 100000 → exec .datagram s = .next s))
  ∧ (s.rpt.queue = [] → exec .datagram s = .next s)
  ∧ exec .managementRouteUp s = .next { s with sbd := { s.sbd with synced := true } }
  ∧ exec .managementRouteDown s = .next { s with sbd := { s.sbd with synced := false } }
  ∧ (∀ v : Word, fw →
      let route := bits v.toNat 1 0
      let per := bits v.toNat 15 8
      let flush := bits v.toNat 23 16
      let valid := bit s.rpt.collect0.toNat 63
      ((route = 3 ∨ per < 1 ∨ 16 < per ∨ flush < 1 ∨ 100 < flush ∨ (route ≠ 0 ∧ valid = false)) → exec (.rptRoute v) s = .next s)
      ∧ (v.toNat < 2 ^ 24 → bits v.toNat 7 2 = 0 → route ≠ 3 → 1 ≤ per → per ≤ 16 → 1 ≤ flush → flush ≤ 100 → (route = 0 ∨ valid = true) →
          ∃ t, exec (.rptRoute v) s = .next t ∧ t.rpt.route.toNat = route ∧ t.rpt.perGram.toNat = per ∧ t.rpt.flush.toNat = flush
            ∧ t.rpt.queue = (if route = 0 then [] else s.rpt.queue)
            ∧ t.rpt.losses = (if route = 0 ∧ s.rpt.queue ≠ [] then sat32 s.rpt.losses s.rpt.queue.length else s.rpt.losses))
      ∧ (bits v.toNat 31 2 = 0 → ∃ t, exec (.rptRdidx v) s = .next t ∧ t.rpt.rdIdx.toNat = bits v.toNat 63 32 ∧ t.rpt.card = s.rpt.card
          ∧ (∀ w, heldEntry s (bits v.toNat 63 32) = some w → t.rpt.rdRes = 1 ∧ t.rpt.rdData = w)
          ∧ (heldEntry s (bits v.toNat 63 32) = none → t.rpt.rdRes = 2 ∧ t.rpt.rdData = List.replicate 8 0))
      ∧ (bits v.toNat 63 32 = 2 ^ 31 → ∃ t, exec (.tstFdmclr v) s = .next t
          ∧ (if s.fuses.life ≠ 3 then t.exm.fdmRes = 2 ∧ t.rpt.fdm = s.rpt.fdm
             else if bits v.toNat 31 0 ≠ s.fuses.moduleId.toNat % 2 ^ 32 then t.exm.fdmRes = 3 ∧ t.rpt.fdm = s.rpt.fdm
             else t.exm.fdmRes = 1 ∧ t.rpt.fdm = [])))
  ∧ (powered s = true →
      let bus := fun (t : State) (p : BitVec 32) (st : Nat) (l : List Out) =>
        t.sbd.pointer = p ∧ t.sbd.status = BitVec.ofNat 8 st ∧ t.out = s.out ++ l
      let p := s.sbd.pointer
      (∀ (off : BitVec 32) (v : Word) (pec : Pec), (pec = .bad ∨ (pec = .absent ∧ s.sbd.pecReq = true)) →
        exec (.setPointer off pec) s = .next (putOut s .busNak) ∧ exec (.readWord pec) s = .next (putOut s .busNak)
          ∧ exec (.writeWord v pec) s = .next (putOut s .busNak))
      ∧ ∀ (off : BitVec 32) (v : Word) (pec : Pec), (pec = .good ∨ (pec = .absent ∧ s.sbd.pecReq = false)) →
        (∃ t, exec (.setPointer off pec) s = .next t
          ∧ if off.toNat % 8 ≠ 0 ∨ blockAt off.toNat = none then bus t p 1 [.busNak] else bus t off 0 [])
        ∧ (∃ t, exec (.readWord pec) s = .next t ∧ bus t (p + 8) (readAt s p.toNat).1 [.bus 8 (readAt s p.toNat).2])
        ∧ readAt s 0 = (0, BitVec.ofNat 64 (s.fuses.moduleId.toNat % 2 ^ 64))
        ∧ ((writeAt s true p.toNat [v]).1 ≠ 0 → ∃ t, exec (.writeWord v pec) s = .next t
            ∧ bus t p (writeAt s true p.toNat [v]).1 [.busNak] ∧ t.chk = s.chk ∧ t.pwr = s.pwr ∧ t.rpt = s.rpt)
        ∧ (p = 0x2028 → s.sec.fwRunning.isSome = true → v.toNat < 2 ^ 48 → 3000 ≤ bits v.toNat 15 0 → bits v.toNat 15 0 ≤ s.chk.cap.toNat →
            ∃ t, exec (.writeWord v pec) s = .next t ∧ bus t 0x2030 0 [] ∧ t.chk = { s.chk with cap := BitVec.ofNat 16 (bits v.toNat 15 0) }))
  ∧ (powered s = true → exec .readStatus s = .next (putOut s (.bus 1 (s.sbd.status.setWidth 64)))
      ∧ exec .readWakeSource s = .next (putOut s (.bus 1 (match s.pwr.wakeSrc with
          | .powerOn => 0 | .twoWire => 1 | .link => 2 | .brownOut => 3 | .watchdog => 4 | .saveResume => 5))))
  ∧ (mgtUp s = true → ∀ own : Bool, (∀ f, f = MgtFrame.arp own ∨ f = MgtFrame.ndp own ∨ f = MgtFrame.echo own →
      exec (.managementFrame f) s = .next (if own then putOut s (.mgtReply f) else
        { s with sbd := { s.sbd with dropped := sat32 s.sbd.dropped 1 } }))
      ∧ exec (.managementFrame .other) s = .next { s with sbd := { s.sbd with dropped := sat32 s.sbd.dropped 1 } })
  ∧ (∀ q : BitVec 128, mgtUp s = true → bits (s.sbd.cfg.getD 5 0).toNat 63 48 ≠ 0 →
      let kind := bits q.toNat 95 88
      let first := bits q.toNat 63 0
      let rested := ∀ t0, s.sbd.lastRead = some t0 → 10000 ≤ (s.clk.master - t0).toNat
      let drop := exec (.readService q) s = .next { s with sbd := { s.sbd with dropped := sat32 s.sbd.dropped 1 } }
      ((bits q.toNat 127 96 ≠ 0x53565251 ∨ (kind ≠ 1 ∧ kind ≠ 2) ∨ bits q.toNat 79 64 ≠ 0 ∨ bits q.toNat 87 80 = 0
          ∨ 16 < bits q.toNat 87 80) → drop)
      ∧ (∀ t0, s.sbd.lastRead = some t0 → (s.clk.master - t0).toNat < 10000 → drop)
      ∧ (bits q.toNat 127 96 = 0x53565251 → bits q.toNat 79 64 = 0 → bits q.toNat 87 80 = 1 → rested →
          (kind = 1 → exec (.readService q) s = .next { putOut s (.service (readAt s first).1 0 [(readAt s first).2]) with
            sbd := { s.sbd with lastRead := some s.clk.master } })
          ∧ (kind = 2 → exec (.readService q) s = .next { putOut s (match heldEntry s first with
                | some w => .service 0 0 w | none => .service 6 0 (List.replicate 8 0)) with
              sbd := { s.sbd with lastRead := some s.clk.master } })))
  ∧ (∀ (i : Nat) (k : Packet) (n : Port) (c : Ctx), s.fab.flight[i]? = some k → k.toPort = some n → k.ptype = 9 → accepts s k = true → Taken s k → transitPoison k = false →
      findCtx (getEp s (12800 + n.val)) k.src = some c → k.seq = c.expected → c.held = [] →
      let w := k.op.toNat
      let m := bits w 123 118 + 1
      let tag := BitVec.ofNat 16 (bits w 77 62)
      let s0 := { s with fab := { s.fab with flight := ldel s.fab.flight i } }
      (bits w 127 124 = 1 → ∃ t l, exec (.controlRead i clean) s = .next t
          ∧ t.out = s.out ++ [.reply n tag (readSpan s (bits w 117 86) m).1 (readSpan s (bits w 117 86) m).2] ++ l
          ∧ t.chk = s.chk ∧ t.pwr = s.pwr ∧ t.rpt = s.rpt ∧ t.sbd = s.sbd)
      ∧ (bits w 127 124 = 2 → k.rows.length = 1 → k.srcPois = 0 →
          let r := writeAt s0 false (bits w 117 86) (bodyWords k.rows m)
          ∃ t l, exec (.controlWrite i clean) s = .next t ∧ t.out = r.2.out ++ [.reply n tag r.1 []] ++ l
            ∧ t.chk = r.2.chk ∧ t.pwr = r.2.pwr ∧ t.rpt = r.2.rpt ∧ t.sbd = r.2.sbd)
      ∧ (bits w 127 124 = 2 → k.rows.length ≠ 1 → ∃ t l, exec (.controlWrite i clean) s = .next t
            ∧ t.out = s.out ++ [.reply n tag 4 []] ++ l ∧ t.chk = s.chk ∧ t.pwr = s.pwr ∧ t.rpt = s.rpt ∧ t.sbd = s.sbd))
  ∧ ∀ (t : Tile) (d : Fin 64) (v : Word), fw → s.fuses.life ≠ 4 → isFenced s (tileSite t.val) = false → tblWf tblDesc0 (getTile s t.val).tables = true →
      tblWf tile0 s.tiles = true →
      let at_ := fun (x : State) => tget tblDesc0 (getTile x t.val).tables d.val
      let old := at_ s
      (bits v.toNat 63 27 = 0 → ∃ t', exec (.hbmTbl t d true v) s = .next t' ∧ at_ t' = { old with hold := v } ∧ t'.hbm = s.hbm)
      ∧ (bits v.toNat 63 27 ≠ 0 → exec (.hbmTbl t d true v) s = .next s)
      ∧ (bits v.toNat 47 26 = 0 → (bit v.toNat 63 = false ∨ tableOk s v.toNat old.hold.toNat = true) →
          ∃ t', exec (.hbmTbl t d false v) s = .next t' ∧ at_ t' = { old with w0 := v, w1 := old.hold } ∧ t'.hbm = s.hbm)
      ∧ ((bits v.toNat 47 26 ≠ 0 ∨ (bit v.toNat 63 = true ∧ tableOk s v.toNat old.hold.toNat = false)) → exec (.hbmTbl t d false v) s = .next s)

/-- R831 to R836, R862: command blocks; R841 to R849: firmware; R853 to R856: attestation; R264 and R834: passes; R821: raw scan. -/
def Obligations.SecureCommandsAreChecked : Prop := ∀ (s : State),
  let firstBad := fun (l : List Bool) => match l.findIdx? (fun x => !x) with | some j => j + 1 | none => 0
  let ended := fun (t : State) (c : Cmd) (status reason : Nat) => ∃ l k w0, t.out = s.out ++ l ++
      [.completion 17 k w0 (BitVec.ofNat 64 (cmdJob c)) 0 s.clk.master] ∧ bits w0.toNat 63 62 = status ∧ bits w0.toNat 55 48 = reason
      ∧ bits w0.toNat 31 0 = c.index.toNat
  (∀ (op : Nat) (i : BitVec 4096 → Instr) (b : BitVec 4096) (c : Cmd),
      (op, i) ∈ [(1, Instr.lifecycle true), (2, .keyRotate true), (3, .fwActivate true), (4, .hpOpen true), (5, .testAccess true),
        (6, .powerCap true), (7, .fuseProgram true)] →
      nextOf s 5 = some c → examining s = true → blkOp b = op → blk b 1 1 = 1 → (op = 3 → s.sec.waiting = none) →
      let counter := blkCounter b
      let check := firstBad [formatOk s b, blk b 31 16 == s.fuses.moduleId.toNat,
        (match s.sec.key with | some k => tagOf k b == blk b 47 32 | none => false), decide (s.sec.counter < counter),
        stateOk s op && (op != 1 || transitionOk s (blk b 48 48))]
      let refused := fun (t : State) (result detail : Nat) => exec (i b) s = .next t ∧ ended t c 1 0x27 ∧ t.sec.result.toNat = result
        ∧ t.sec.detail.toNat = detail ∧ t.sec.counter = (if result ≤ 4 then s.sec.counter else counter)
        ∧ t.sec.tagFails = (if result = 3 then sat8 s.sec.tagFails 1 else s.sec.tagFails)
        ∧ t.sec.holdTill = (if result = 3 then some (s.clk.master + 1000000) else none)
        ∧ t.chk = s.chk ∧ t.exm = s.exm ∧ t.fuses = s.fuses ∧ t.passDir = s.passDir ∧ t.cores = s.cores ∧ t.sec.key = s.sec.key
      let accepted := fun (t : State) => exec (i b) s = .next t ∧ ended t c 0 0 ∧ t.sec.result = 0 ∧ t.sec.counter = counter
        ∧ t.sec.opcode.toNat = op
      (check ≠ 0 → ∃ t, refused t check 0)
      ∧ (check = 0 →
          (op = 1 →
            (s.fuses.life = 1 → blk b 48 48 = 2 → s.sec.epoch = 0 → ∃ t, refused t 6 6)
            ∧ (¬(s.fuses.life = 1 ∧ blk b 48 48 = 2 ∧ s.sec.epoch = 0) → ∃ t, accepted t ∧ t.exm.pending.toNat = blk b 48 48 ∧ t.fuses = s.fuses
                ∧ t.exm.pendKey = if carriesKey s (blk b 48 48) then some (unwrapKey s b 81) else none))
          ∧ (op = 2 → ∃ t, accepted t ∧ t.sec.key = some (unwrapKey s b 48) ∧ t.sec.epoch = s.sec.epoch + 1)
          ∧ (op = 3 →
              ((s.sec.fwStaged = none ∨ s.sec.fwVerified = false) → ∃ t, refused t 6 3)
              ∧ ∀ f, s.sec.fwStaged = some f → s.sec.fwVerified = true →
                  (blk b 111 48 ≠ f.measure.toNat → ∃ t, refused t 6 4)
                  ∧ (blk b 111 48 = f.measure.toNat → ∃ t, exec (i b) s = .next t ∧ t.out = s.out ∧ t.sec.counter = counter
                      ∧ t.sec.waiting = some (c.index, BitVec.ofNat 2 (blk b 112 112)) ∧ t.sec.fwRunning = s.sec.fwRunning))
          ∧ (op = 4 →
              let h := passOf b
              (s.passDir.find? (fun d => d.1 == h.number) = none → (12800 ≤ h.dst.toNat ∨ siteOfId s h.dst.toNat = none) → ∃ t, refused t 6 1)
              ∧ (s.passDir.find? (fun d => d.1 == h.number) = none → h.dst.toNat < 12800 → ∀ u, siteOfId s h.dst.toNat = some u →
                (mayOpen s u h = true → ∃ t, accepted t ∧ t.clk.setOk = false ∧ t.passDir = s.passDir ++ [(h.number, h.dst)]
                  ∧ getCore t u = { getCore s u with passes := (getCore s u).passes ++ [h] } ∧ ∀ v, v ≠ u → getCore t v = getCore s v)
                ∧ (mayOpen s u h = false → ∃ t, refused t 6 1))
              ∧ ∀ d u k, s.passDir.find? (fun d => d.1 == h.number) = some d → passHolders s h.number.toNat = [u] →
                  findPass (getCore s u) h.number.toNat = some k →
                  ((samePass h k = false ∨ h.credit % 512 ≠ 0) → ∃ t, refused t 6 1)
                  ∧ (samePass h k = true → h.credit % 512 = 0 → 2 ^ 40 - 512 < k.credit + h.credit → ∃ t, refused t 6 2)
                  ∧ (samePass h k = true → k.credit + h.credit ≤ 2 ^ 40 - 512 → h.credit % 512 = 0 → ∃ t, accepted t ∧ t.passDir = s.passDir
                      ∧ findPass (getCore t u) h.number.toNat = some { k with
                          credit := k.credit + h.credit, expiry := if k.expiry ≤ h.expiry then h.expiry else k.expiry }))
          ∧ (op = 5 → tblWf plc0 s.plcs = true → ∃ t, accepted t ∧ t.exm.raw = true ∧ t.brg.savedOk = false ∧ t.passDir = []
              ∧ (∀ u, (getCore t u).passes = []) ∧ ∀ p, (getPlc t p).state = .absent)
          ∧ (op = 6 →
              ((blk b 49 48 < 3000 ∨ 5400 < blk b 49 48) → ∃ t, refused t 6 5)
              ∧ (3000 ≤ blk b 49 48 → blk b 49 48 ≤ 5400 → ∃ t, accepted t ∧ t.chk = { s.chk with cap := BitVec.ofNat 16 (blk b 49 48) }))
          ∧ (op = 7 →
              let word := BitVec.ofNat 16 (blk b 51 50)
              (blk b 48 48 = 8 → Config.protectedFuse word = true → ∃ t, refused t 6 7)
              ∧ ((blk b 48 48 ≠ 8 ∨ Config.protectedFuse word = false) → ∃ t, accepted t ∧ t.fuses.life = s.fuses.life
                  ∧ t.fuses.moduleId = s.fuses.moduleId
                  ∧ t.fuses.blown = s.fuses.blown ++ [(BitVec.ofNat 8 (blk b 48 48), word, BitVec.ofNat 64 (blk b 59 52))]))))
  ∧ (∀ (readOk : Bool) (b : BitVec 4096) (c : Cmd), nextOf s 5 = some c →
      (examining s = true → (readOk = false ∨ blkOp b < 1 ∨ 7 < blkOp b ∨ blk b 1 1 ≠ 1) → ∃ t, exec (.auth readOk b) s = .next t
        ∧ ended t c 1 0x27 ∧ t.sec.result = 1 ∧ t.sec.counter = s.sec.counter ∧ t.sec.holdTill = none)
      ∧ (examining s = false → ∀ i ∈ [Instr.auth readOk b, .lifecycle readOk b, .keyRotate readOk b, .fwActivate readOk b, .hpOpen readOk b,
          .testAccess readOk b, .powerCap readOk b, .fuseProgram readOk b], exec i s = .next s))
  ∧ (∀ t0, s.sec.holdTill = some t0 → exec .authHoldEnd s = .next (if t0 ≤ s.clk.master then
      { s with sec := { s.sec with holdTill := none } } else s))
  ∧ (∀ index flags f, s.sec.waiting = some (index, flags) → s.sec.fwStaged = some f →
      (maySwitch s = false → exec .firmwareSwitch s = .next s)
      ∧ (maySwitch s = true → ∃ t, exec .firmwareSwitch s = .next t ∧ t.sec.fwRunning = some f ∧ t.sec.waiting = none ∧ t.sec.fwStaged = none
          ∧ t.sec.floor = (if bit flags.toNat 0 ∧ s.sec.floor < hdrSecurity f.head then hdrSecurity f.head else s.sec.floor)
          ∧ t.sec.slotFloor = (if bit flags.toNat 1 ∧ s.sec.slotFloor.toNat < (hdrSlot f.head).toNat then (hdrSlot f.head).setWidth 2 else s.sec.slotFloor)
          ∧ t.pwr.t0Start = s.clk.master ∧ t.plcs = s.plcs ∧ t.cores = s.cores
          ∧ ∀ c, s.cmds.find? (fun c => c.index == index) = some c → ended t c 0 0))
  ∧ (∀ (v : Word) (f : FwImage), bit v.toNat 63 = true → bit v.toNat 62 = false → bits v.toNat 52 50 = 0 → 8 ≤ bits v.toNat 61 53 →
      bits v.toNat 61 53 ≤ 479 → 9 ≤ bits v.toNat 49 36 → bits v.toNat 49 36 ≤ 12288 → bits v.toNat 8 0 = 0 →
      (∃ n, n < 32 ∧ isUp s n = true) → bit s.sec.fwReq.toNat 63 = false →
      let h := f.head
      let r := firstBad [f.readOk, hdrForm h, decide (1 ≤ hdrLength h ∧ hdrLength h ≤ 6287360 ∧ 4096 + hdrLength h ≤ bits v.toNat 49 36 * 512),
        decide (hdrRevision h ≤ s.fuses.revision), decide (s.sec.slotFloor.toNat ≤ (hdrSlot h).toNat), decide (s.sec.floor ≤ hdrSecurity h),
        (Config.sha3 f.body (hdrLength h)).toNat == hdr h 95 32,
        decide (hdrSlot h < 4) && Config.ed25519Ok (hdrSlot h) (hdrSigned h) (BitVec.ofNat 512 (hdr h 319 256)),
        Config.mlDsaOk (hdrSlot h) (hdrSigned h) (BitVec.ofNat 26472 (hdr h 3628 320))]
      let held : Firmware := { head := h, body := f.body, measure := Config.sha3 [(hdrSigned h).setWidth 4096] 256 }
      (s.sec.fwRunning = none → s.pwr.state = .startup → ∃ t, exec (.fwLoad v f) s = .next t ∧ t.sec.fwRes.toNat = r
        ∧ bit t.sec.fwReq.toNat 63 = false ∧ t.sec.fwRunning = if r = 0 then some held else none)
      ∧ (s.sec.fwRunning.isSome = true → (s.pwr.phase = .run ∨ s.pwr.phase = .nap) →
          (s.sec.waiting = none → ∃ t, exec (.fwLoad v f) s = .next t ∧ t.sec.fwRes.toNat = r ∧ t.sec.fwStaged = some held
            ∧ t.sec.fwVerified = (r == 0) ∧ t.sec.fwRunning = s.sec.fwRunning ∧ t.plcs = s.plcs)))
  ∧ ∀ (v : Word) (nonce : BitVec 256) (ok : Bool), bit v.toNat 63 = true → 8 ≤ bits v.toNat 61 53 → bits v.toNat 61 53 ≤ 479 →
      bits v.toNat 49 36 = 0 → bits v.toNat 8 0 = 0 → s.sec.fwRunning.isSome = true → powered s = true → bit s.sec.attest.toNat 63 = false →
      let sent := fun (t : State) (m : Nat) (first : Row → Prop) => ∃ (n : Nat) (rows : List Row), lowestPort (isUp s) = some n ∧ rows.length = m
        ∧ (∀ x, rows.head? = some x → first x)
        ∧ t.out = s.out ++ rows.zipIdx.map (fun x => .hostRow (Fin.ofNat 32 n) (BitVec.ofNat 9 (bits v.toNat 61 53)) (bits v.toNat 35 0 + 512 * x.2) x.1)
      let result := fun (t : State) (r : Nat) => bits t.sec.attest.toNat 52 50 = r ∧ bit t.sec.attest.toNat 63 = false
      let upPort := ∃ n, n < 32 ∧ isUp s n = true
      (s.fuses.life = 4 → (bit v.toNat 62 = false → ∃ t, exec (.attestReport v nonce ok) s = .next t ∧ t.out = s.out ∧ result t 3)
        ∧ (bit v.toNat 62 = true → ∃ t, exec (.identityCertificate v ok) s = .next t ∧ t.out = s.out ∧ result t 3))
      ∧ (s.fuses.life ≠ 4 → upPort → bit v.toNat 62 = false → ∃ t, exec (.attestReport v nonce ok) s = .next t
          ∧ sent t 19 (fun x => bits x.toNat 31 0 = 0x53564154 ∧ bits x.toNat 47 32 = 1 ∧ bits x.toNat 63 48 = 19
              ∧ bits x.toNat 191 64 = s.fuses.moduleId.toNat ∧ bits x.toNat 447 192 = nonce.toNat ∧ bits x.toNat 511 448 = nowT s)
          ∧ t.sec.nonce = nonce ∧ result t (if ok then 1 else 2))
      ∧ (s.fuses.life ≠ 4 → upPort → bit v.toNat 62 = true → ∃ t, exec (.identityCertificate v ok) s = .next t ∧ sent t 15 (fun _ => True)
          ∧ result t (if ok then 1 else 2))
end

