-- ==== Sys2Proof/Laws/Frames.lean ====
section
/-! SUPPORT. What the shared operations change: each answers its state with other values in the parts that its lemma names, and
with every other part as it was. -/

namespace Sys2Proof.Machine

/-- A completion changes its ring's index and what leaves the module. -/
theorem postCompletion_changes (s : State) (ring : Nat) (i : BitVec 32) (st rs : Nat) (w1 w2 : Word) (at_ : Tick) :
    ∃ r o, postCompletion s ring i st rs w1 w2 at_ = { s with rings := r, out := o } := ⟨_, _, rfl⟩

/-- An event changes ring 18's index, the count of dropped events and what leaves the module. -/
theorem postEvent_changes (s : State) (k p : Nat) (l : List Word) :
    ∃ r o d, postEvent s k p l = { s with rings := r, out := o, evDropped := d } := by
  unfold postEvent writeLost
  simp only
  repeat' split
  all_goals exact ⟨_, _, _, rfl⟩

theorem queueEntry_changes (s : State) (w : List Word) : ∃ q l c, queueEntry s w
    = { s with rpt := { s.rpt with queue := q, losses := l }, sbd := { s.sbd with cause := c } } := by
  unfold queueEntry raiseCause
  simp only
  repeat' split
  all_goals exact ⟨_, _, _, rfl⟩

theorem entry_routes (s : State) (x : Report) (full : Bool) (w : List Word) :
    let t := if full then raiseCause { s with rpt := x } 5 else { s with rpt := x }
    ∃ q l c r o d, queueEntry (if x.route = 1 then t else postEvent t 0x01 0xFF w) w
      = { s with rpt := { x with queue := q, losses := l }, sbd := { s.sbd with cause := c }, rings := r, out := o, evDropped := d } := by
  intro t
  obtain ⟨c0, ht⟩ : ∃ c, t = { s with rpt := x, sbd := { s.sbd with cause := c } } := by
    cases full
    · exact ⟨s.sbd.cause, rfl⟩
    · exact ⟨_, rfl⟩
  obtain ⟨r, o, d, hv⟩ : ∃ r o d, (if x.route = 1 then t else postEvent t 0x01 0xFF w) = { t with rings := r, out := o, evDropped := d } := by
    split
    · exact ⟨_, _, _, rfl⟩
    · exact postEvent_changes t _ _ _
  obtain ⟨q, l, c, hq⟩ := queueEntry_changes (if x.route = 1 then t else postEvent t 0x01 0xFF w) w
  rw [hq, hv, ht]
  exact ⟨q, l, c, r, o, d, rfl⟩

/-- An entry takes the next sequence, and changes the report, the alert causes, ring 18's index, the count of dropped events and what
leaves the module. -/
theorem postEntry_changes (s : State) (e : EntryIn) : ∃ x c r o d, x.next = s.rpt.next + 1
    ∧ postEntry s e = { s with rpt := x, sbd := { s.sbd with cause := c }, rings := r, out := o, evDropped := d } := by
  let y : Report := { s.rpt with next := s.rpt.next + 1, stamp := if s.rpt.stamp ≤ e.stamp then e.stamp else s.rpt.stamp }
  let z : Report := if y.tail.length < 256 then { y with tail := y.tail ++ [entryWords s e] } else { y with overflow := sat32 y.overflow 1 }
  have hz : z.next = s.rpt.next + 1 := by simp only [z]; split <;> rfl
  obtain ⟨q, l, c, r, o, d, h⟩ := entry_routes s z (decide (256 ≤ s.rpt.tail.length)) (entryWords s e)
  exact ⟨{ z with queue := q, losses := l }, c, r, o, d, hz, h⟩

/-- What waits at a port leaves: the port changes, and what leaves the module. -/
theorem txGo_changes (n : Nat) (l : List Out) (s : State) : ∃ p o, txGo s n l = { s with ports := p, out := o } := by
  induction l generalizing s with
  | nil => exact ⟨_, _, rfl⟩
  | cons x l ih =>
    unfold txGo
    simp only
    split
    · obtain ⟨p, o, h⟩ := ih (sendFlits s n x)
      exact ⟨p, o, by rw [h]; rfl⟩
    · exact ⟨_, _, rfl⟩

theorem sendOn_changes (s : State) (n : Nat) (x : Out) : ∃ p o, sendOn s n x = { s with ports := p, out := o } := by
  obtain ⟨p, o, h⟩ := txGo_changes n (getPort (modPort s n fun y => { y with txq := y.txq ++ [x] }) n).txq
    (modPort s n fun y => { y with txq := y.txq ++ [x] })
  exact ⟨p, o, h.trans rfl⟩

/-- A packet joins those in flight, or an answer to it does, or it leaves on its port. -/
theorem launch_changes (s : State) (k : Packet) :
    ∃ p o f, launch s k = { s with ports := p, out := o, fab := { s.fab with flight := f } } := by
  unfold launch
  split
  · split
    · obtain ⟨p, o, h⟩ := sendOn_changes s (k.toPort.getD 0).val (.packet (k.toPort.getD 0) (remoteNumber s k)
        (headOf (stampRemote k (remoteNumber s k))) k.rows)
      exact ⟨p, o, s.fab.flight, h⟩
    · exact ⟨_, _, _, rfl⟩
  · exact ⟨_, _, _, rfl⟩

/-- An answer to a packet. -/
theorem answer_changes (s : State) (k : Packet) (c : Option Nat) :
    ∃ p o f, answer s k c = { s with ports := p, out := o, fab := { s.fab with flight := f } } := by
  unfold answer
  split
  · exact ⟨_, _, _, rfl⟩
  · exact launch_changes s _

/-- Time advances the master count by 1 in a powered module whose clocks are gated, and nothing else. -/
theorem tick_gated {s : State} (h : powered s = true) (g : s.clk.gated = true) :
    tick s = { s with clk := { s.clk with master := s.clk.master + 1 } } := by
  unfold tick; simp [h, g]

end Sys2Proof.Machine
end

