-- ==== Sys2Proof/Laws/Tbl.lean ====
section
/-! SUPPORT. What sparse tables and memories read after a write, and that every write keeps their canonical form. -/

namespace Sys2Proof.Machine

/-! ## Reading after a write -/

theorem tget_tput_self {α : Type} (d x : α) (t : Tbl α) (k : Nat) : tget d (tput t k x) k = x := by
  induction t with
  | nil => simp [tput, tget]
  | cons e t ih =>
    obtain ⟨k', v⟩ := e
    by_cases h : k' = k
    · simp [tput, tget, h]
    · by_cases h2 : k < k' <;> simp [tput, tget, h, h2, ih]

theorem tget_tput_other {α : Type} (d x : α) (t : Tbl α) {j k : Nat} (h : k ≠ j) : tget d (tput t k x) j = tget d t j := by
  induction t with
  | nil => simp [tput, tget, h]
  | cons e t ih =>
    obtain ⟨k', v⟩ := e
    by_cases h1 : k' = k
    · subst h1; simp [tput, tget, h]
    · by_cases h2 : k < k' <;> simp [tput, tget, h1, h2, ih, h]

theorem tget_tdel_other {α : Type} (d : α) (t : Tbl α) {j k : Nat} (h : k ≠ j) : tget d (tdel t k) j = tget d t j := by
  induction t with
  | nil => rfl
  | cons e t ih =>
    obtain ⟨k', v⟩ := e
    by_cases h1 : k' = k
    · subst h1; simp [tdel, tget, h]
    · by_cases h2 : k < k' <;> simp [tdel, tget, h1, h2, ih]

/-- A written value that is not the default reads back, in any table. -/
theorem tget_tset_self {α : Type} [DecidableEq α] (d : α) (t : Tbl α) (k : Nat) {x : α} (h : x ≠ d) : tget d (tset d t k x) k = x := by
  simp [tset, h, tget_tput_self]

theorem tget_tset_other {α : Type} [DecidableEq α] (d : α) (t : Tbl α) {j k : Nat} (x : α) (h : k ≠ j) :
    tget d (tset d t k x) j = tget d t j := by
  unfold tset
  split
  · exact tget_tdel_other d t h
  · exact tget_tput_other d x t h

/-! ## The canonical form -/

theorem tblWfFrom_weaken {α : Type} [DecidableEq α] (d : α) (t : Tbl α) {a b : Nat} (h : a ≤ b) (w : tblWfFrom d (some b) t = true) :
    tblWfFrom d (some a) t = true := by
  cases t with
  | nil => rfl
  | cons e t =>
    obtain ⟨k, v⟩ := e
    simp only [tblWfFrom, Bool.and_eq_true, decide_eq_true_eq] at w ⊢
    exact ⟨⟨by omega, w.1.2⟩, w.2⟩

theorem tblWfFrom_none {α : Type} [DecidableEq α] (d : α) (t : Tbl α) (b : Nat) (w : tblWfFrom d (some b) t = true) :
    tblWfFrom d none t = true := by
  cases t with
  | nil => rfl
  | cons e t =>
    obtain ⟨k, v⟩ := e
    simp only [tblWfFrom, Bool.and_eq_true, decide_eq_true_eq] at w ⊢
    exact ⟨⟨trivial, w.1.2⟩, w.2⟩

/-- A table whose keys are above a bound reads the default at the bound and below. -/
theorem tget_below {α : Type} [DecidableEq α] (d : α) (t : Tbl α) {b k : Nat} (w : tblWfFrom d (some b) t = true) (h : k ≤ b) :
    tget d t k = d := by
  induction t generalizing b with
  | nil => rfl
  | cons e t ih =>
    obtain ⟨k', v⟩ := e
    simp only [tblWfFrom, Bool.and_eq_true, decide_eq_true_eq] at w
    have : k' ≠ k := by omega
    simp only [tget, this, if_false]
    exact ih w.2 (by omega)

/-- Whether a key may be written under a bound. -/
def keyOver (b : Option Nat) (k : Nat) : Bool := match b with | none => true | some b => decide (b < k)

theorem tput_wf {α : Type} [DecidableEq α] (d : α) (t : Tbl α) (b : Option Nat) (k : Nat) {x : α} (h : x ≠ d)
    (hb : keyOver b k = true) (w : tblWfFrom d b t = true) : tblWfFrom d b (tput t k x) = true := by
  induction t generalizing b with
  | nil => cases b <;> simp_all [tput, tblWfFrom, keyOver]
  | cons e t ih =>
    obtain ⟨k', v⟩ := e
    simp only [tblWfFrom, Bool.and_eq_true, decide_eq_true_eq] at w
    by_cases h1 : k' = k
    · subst h1
      simp only [tput, if_true, tblWfFrom, Bool.and_eq_true, decide_eq_true_eq]
      exact ⟨⟨w.1.1, h⟩, w.2⟩
    · by_cases h2 : k < k'
      · simp only [tput, h1, h2, if_true, if_false, tblWfFrom, Bool.and_eq_true, decide_eq_true_eq]
        refine ⟨⟨?_, h⟩, ⟨trivial, w.1.2⟩, w.2⟩
        cases b <;> simp_all [keyOver]
      · simp only [tput, h1, h2, if_false, tblWfFrom, Bool.and_eq_true, decide_eq_true_eq]
        exact ⟨w.1, ih (some k') (by simp [keyOver]; omega) w.2⟩

theorem tdel_wf {α : Type} [DecidableEq α] (d : α) (t : Tbl α) (b : Option Nat) (k : Nat) (w : tblWfFrom d b t = true) :
    tblWfFrom d b (tdel t k) = true := by
  induction t generalizing b with
  | nil => rfl
  | cons e t ih =>
    obtain ⟨k', v⟩ := e
    have w' := w
    simp only [tblWfFrom, Bool.and_eq_true, decide_eq_true_eq] at w
    by_cases h1 : k' = k
    · simp only [tdel, h1, if_true]
      cases b with
      | none => exact tblWfFrom_none d t k' w.2
      | some b =>
        have hb : b < k' := by simpa using w.1.1
        exact tblWfFrom_weaken d t (by omega) w.2
    · by_cases h2 : k < k'
      · simpa only [tdel, h1, h2, if_true, if_false] using w'
      · simp only [tdel, h1, h2, if_false, tblWfFrom, Bool.and_eq_true, decide_eq_true_eq]
        exact ⟨w.1, ih (some k') w.2⟩

/-- A write keeps a table's canonical form. -/
theorem tset_wf {α : Type} [DecidableEq α] (d : α) (t : Tbl α) (k : Nat) (x : α) (w : tblWf d t = true) : tblWf d (tset d t k x) = true := by
  unfold tset
  split
  · exact tdel_wf d t none k w
  · exact tput_wf d t none k ‹_› rfl w

theorem tmod_wf {α : Type} [DecidableEq α] (d : α) (t : Tbl α) (k : Nat) (f : α → α) (w : tblWf d t = true) :
    tblWf d (tmod d t k f) = true := tset_wf d t k _ w

theorem tmap_wf {α : Type} [DecidableEq α] (d : α) (f : Nat → α → α) (t : Tbl α) (w : tblWf d t = true) :
    tblWf d (tmap d f t) = true := by
  unfold tmap
  have : ∀ (l acc : Tbl α), tblWf d acc = true → tblWf d (l.foldl (fun acc e => tset d acc e.1 (f e.1 e.2)) acc) = true := by
    intro l
    induction l with
    | nil => intro acc h; exact h
    | cons e l ih => intro acc h; exact ih _ (tset_wf d acc _ _ h)
  exact this t t w

/-- A written value reads back in a table in canonical form. -/
theorem tget_tset {α : Type} [DecidableEq α] (d : α) (t : Tbl α) (k : Nat) (x : α) (w : tblWf d t = true) :
    tget d (tset d t k x) k = x := by
  by_cases h : x = d
  · subst h
    simp only [tset, if_true]
    unfold tblWf at w
    revert w
    generalize none = b
    intro w
    induction t generalizing b with
    | nil => rfl
    | cons e t ih =>
      obtain ⟨k', v⟩ := e
      simp only [tblWfFrom, Bool.and_eq_true, decide_eq_true_eq] at w
      by_cases h1 : k' = k
      · simp only [tdel, h1, if_true]
        exact tget_below _ t w.2 (by omega)
      · by_cases h2 : k < k'
        · simp only [tdel, h1, h2, if_true, if_false, tget]
          exact tget_below _ t w.2 (by omega)
        · simp only [tdel, h1, h2, if_false, tget]
          exact ih (some k') w.2
  · exact tget_tset_self d t k h

/-! ## Memories -/

/-- Every key of a table that is above a bound lies from a to b. -/
theorem cellsOf_wf (v n : Nat) : ∀ (a : Nat) (b : Option Nat), keyOver b a = true → tblWfFrom unlistedByte b (cellsOf a v n) = true := by
  induction n generalizing v with
  | zero => intro a b _; rfl
  | succ n ih =>
    intro a b hb
    simp only [cellsOf]
    split
    · refine ih _ (a + 1) b ?_
      cases b <;> simp_all [keyOver]; omega
    · simp only [tblWfFrom, Bool.and_eq_true, decide_eq_true_eq]
      refine ⟨⟨?_, by assumption⟩, ih _ (a + 1) (some a) (by simp [keyOver])⟩
      cases b <;> simp_all [keyOver]

/-- A table in canonical form keeps it where a filter drops entries. -/
theorem filter_wf (p : Host.Cell → Bool) (m : List Host.Cell) (b : Option Nat) (w : tblWfFrom unlistedByte b m = true) :
    tblWfFrom unlistedByte b (m.filter p) = true := by
  induction m generalizing b with
  | nil => rfl
  | cons e m ih =>
    obtain ⟨k, v⟩ := e
    have w' := w
    simp only [tblWfFrom, Bool.and_eq_true, decide_eq_true_eq] at w
    have hn : tblWfFrom unlistedByte b m = true := by
      cases b with
      | none => exact tblWfFrom_none _ m k w.2
      | some b => exact tblWfFrom_weaken _ m (by have : b < k := by simpa using w.1.1
                                                 omega) w.2
    by_cases h : p (k, v) = true
    · simp only [List.filter_cons, h, if_true, tblWfFrom, Bool.and_eq_true, decide_eq_true_eq]
      exact ⟨w.1, ih (some k) w.2⟩
    · simp only [List.filter_cons, h]
      exact ih b hn

/-- Two parts in canonical form, the first below a key and the second from it on, make one. -/
theorem append_wf (a : Nat) (x y : List Host.Cell) (b : Option Nat) (hx : tblWfFrom unlistedByte b x = true)
    (below : ∀ e ∈ x, e.1 < a) (hy : tblWfFrom unlistedByte none y = true) (above : ∀ e ∈ y, a ≤ e.1)
    (hb : ∀ c, b = some c → c < a) : tblWfFrom unlistedByte b (x ++ y) = true := by
  induction x generalizing b with
  | nil =>
    cases y with
    | nil => rfl
    | cons e y =>
      obtain ⟨k, v⟩ := e
      have ha := above (k, v) (by simp)
      simp only [List.nil_append, tblWfFrom, Bool.and_eq_true, decide_eq_true_eq] at hy ⊢
      refine ⟨⟨?_, hy.1.2⟩, hy.2⟩
      cases b with
      | none => trivial
      | some c => have := hb c rfl; simp only [decide_eq_true_eq]; simp at ha; omega
  | cons e x ih =>
    obtain ⟨k, v⟩ := e
    simp only [List.cons_append, tblWfFrom, Bool.and_eq_true, decide_eq_true_eq] at hx ⊢
    refine ⟨hx.1, ih (some k) hx.2 (fun e he => below e (by simp [he])) ?_⟩
    intro c hc
    cases hc
    exact below (k, v) (by simp)

theorem cellsOf_range (v n : Nat) : ∀ (a : Nat), ∀ e ∈ cellsOf a v n, a ≤ e.1 ∧ e.1 < a + n := by
  induction n generalizing v with
  | zero => intro a e h; simp [cellsOf] at h
  | succ n ih =>
    intro a e h
    simp only [cellsOf] at h
    split at h
    · have := ih _ (a + 1) e h; omega
    · rcases List.mem_cons.1 h with h | h
      · subst h; simp
      · have := ih _ (a + 1) e h; omega

/-- A write keeps a memory's canonical form. -/
theorem memWrite_wf (m : List Host.Cell) (a v n : Nat) (w : Memory.wf m = true) : Memory.wf (memWrite m a v n) = true := by
  unfold Memory.wf tblWf memWrite at *
  rw [List.append_assoc]
  refine append_wf a _ _ none (filter_wf _ m none w) ?_ ?_ ?_ (by simp)
  · intro e he; simpa using (List.mem_filter.1 he).2
  · refine append_wf (a + n) _ _ none (cellsOf_wf v n a none rfl) ?_ (filter_wf _ m none w) ?_ (by simp)
    · intro e he; exact (cellsOf_range v n a e he).2
    · intro e he; simpa using (List.mem_filter.1 he).2
  · intro e he
    rcases List.mem_append.1 he with h | h
    · exact (cellsOf_range v n a e h).1
    · have : a + n ≤ e.1 := by simpa using (List.mem_filter.1 h).2
      omega

end Sys2Proof.Machine
end

