-- ==== Sys2Proof/Laws/Issue.lean ====
section
/-! SUPPORT. What issue does: a bundle of one slot that nothing holds up and no fault stops has its slot's effect and the
sequence after it; a result joins those on their way; reading and writing one core. -/

namespace Sys2Proof.Laws

open Sys2Proof Sys2Proof.Machine

/-! ## One core -/

theorem getCore_setCore_self {s : State} {u : Nat} {c : Core} (h : c ≠ core0) : getCore (setCore s u c) u = c :=
  tget_tset_self core0 s.cores u h

theorem getCore_setCore_ne {s : State} {u v : Nat} (c : Core) (h : v ≠ u) : getCore (setCore s u c) v = getCore s v :=
  tget_tset_other core0 s.cores c (Ne.symm h)

theorem running_of_canIssue {s : State} {u : Nat} (h : canIssue s u = true) : (getCore s u).run = .running := by
  simp [canIssue] at h; exact h.1.2

theorem held_of_canIssue {s : State} {u : Nat} (h : canIssue s u = true) : (getCore s u).held = none := by
  simp [canIssue] at h; exact h.2

/-- A core that runs is not the core that no placement has loaded. -/
theorem running_ne_core0 {c : Core} (h : c.run = .running) : c ≠ core0 := by
  intro e; rw [e] at h; cases h

/-! ## A bundle of one slot -/

theorem istoreUe_none (c : Core) (fr : Nat) :
    ∀ n k, (∀ j, j < k + n → tget 0 c.istoreErrs (c.pc * 4 + j) < 2) → istoreUe c fr k n = (none, fr) := by
  intro n
  induction n with
  | zero => intros; rfl
  | succ n ih =>
    intro k h
    have := h k (by omega)
    simp only [istoreUe, this, if_true]
    exact ih (k + 1) (fun j hj => h j (by omega))

theorem settle_fresh {s : State} {u : Nat} (h : ∀ p ∈ (getCore s u).pend, (getCore s u).cycle < p.due) : settleCore s u = s := by
  have : (getCore s u).pend.takeWhile (fun p => decide (p.due ≤ (getCore s u).cycle)) = [] := by
    cases hp : (getCore s u).pend with
    | nil => rfl
    | cons p t =>
      have := h p (by simp [hp])
      simp [List.takeWhile, Nat.not_le.mpr this]
  simp [settleCore, this]

/-- A bundle of one slot that nothing holds up and no fault stops: what its wait's cycles count as, its slot's effect, then the sequence
after it. -/
theorem stage_lone {s : State} {a : Issue} {opc w : Nat} (h : Lone s a opc w) :
    stage s a opc w
      = (let t := settleIssue s a.u.val (getCore s a.u.val).cycle none [slotOf a opc w]
         advance (slotEffect t a.u.val (getCore t a.u.val) (slotOf a opc w)) a.u.val (getCore t a.u.val) [slotOf a opc w]) := by
  obtain ⟨h1, h2, hz, h3, ⟨h4, h5⟩, h6, h7, h8, h9⟩ := h
  have e1 : settleCore s a.u.val = s := settle_fresh h4
  have e3 : istoreUe (getCore s a.u.val) s.free 0 (if (getCore s a.u.val).profile = .s then 2 else 4) = (none, s.free) :=
    istoreUe_none _ _ _ 0 (fun j hj => h5 j (by split at hj <;> omega))
  have e4 : addSlot (slotOf a opc w) (getCore s a.u.val).forming = [slotOf a opc w] := by simp [h3, addSlot]
  have e5 : issueFaults s a.u.val (getCore s a.u.val) [slotOf a opc w] = [] := by
    unfold issueFaults
    rw [h6, if_neg (by decide)]
    by_cases ho : opc = 0x88
    · have : [slotOf a opc w].find? (fun x => x.opc == 0x88) = some (slotOf a opc w) := by simp [slotOf, ho]
      rw [if_pos ho] at h7
      simp only [this]
      exact h7
    · have : [slotOf a opc w].find? (fun x => x.opc == 0x88) = none := by simp [slotOf, ho]
      rw [if_neg ho] at h7
      simpa only [this] using h7
  have e6 : [slotOf a opc w].any (stalls s a.u.val (getCore s a.u.val)) = false := by simp [h8]
  unfold stage
  simp only [h1, h2, hz, if_true]
  show issueBundle s a.u.val (addSlot (slotOf a opc w) (getCore s a.u.val).forming) = _
  rw [e4]
  unfold issueBundle issueSince
  simp only [e1, e3, h6, e5, e6]
  rfl

/-- A wait's account is of no other bundle: one slot that is no WAITC changes nothing before its effect. -/
theorem settleIssue_other (s : State) (u : Nat) {op : SlotOp} (h : op.opc ≠ 0x88) :
    settleIssue s u (getCore s u).cycle none [op] = s := by
  have hf : [op].find? (fun x => x.opc == 0x88) = none := by simp [h]
  have ht : settleTight s u (getCore s u).cycle op = s := by
    unfold settleTight
    split
    · simp
    · rfl
  unfold settleIssue
  simp only [hf, List.foldl_cons, List.foldl_nil, ht]

/-- The same bundle, where its slot is no WAITC: its slot's effect, then the sequence after it. -/
theorem stage_lone_other {s : State} {a : Issue} {opc w : Nat} (h : Lone s a opc w) (ho : opc ≠ 0x88) :
    stage s a opc w
      = advance (slotEffect s a.u.val (getCore s a.u.val) (slotOf a opc w)) a.u.val (getCore s a.u.val) [slotOf a opc w] := by
  have e : settleIssue s a.u.val (getCore s a.u.val).cycle none [slotOf a opc w] = s := settleIssue_other s a.u.val ho
  rw [stage_lone h, e]

/-- A bundle of one slot that is no branch, SIGCHK or HALT and gives one result: its core alone changes, to the core past it. -/
theorem advance_plain {s s' : State} {u : Nat} {op : SlotOp} {p : Pend}
    (hr : (getCore s u).run = .running) (hpc : (getCore s u).pc + 1 < bundleCount (getCore s u).profile)
    (ho : ¬ (0x80 ≤ op.opc ∧ op.opc ≤ 0x86)) (h1 : op.opc ≠ 0x8E) (h2 : op.opc ≠ 0x8F)
    (he : s' = setCore s u { getCore s u with pend := insertPend p (getCore s u).pend }) :
    OnlyCore s (advance s' u (getCore s u) [op]) u (passed (getCore s u) p) := by
  have hne : ({ getCore s u with pend := insertPend p (getCore s u).pend } : Core) ≠ core0 := running_ne_core0 hr
  have hg : getCore s' u = { getCore s u with pend := insertPend p (getCore s u).pend } := by
    rw [he]; exact getCore_setCore_self hne
  have hf : [op].find? (fun op => decide (0x80 ≤ op.opc ∧ op.opc ≤ 0x86)) = none := by
    simp only [List.find?, ho, decide_false]
  have hb : ((getCore s u).pc + 1 == bundleCount (getCore s u).profile) = false := by
    simp; omega
  have hx : (passed (getCore s u) p) ≠ core0 := running_ne_core0 hr
  have ha : advance s' u (getCore s u) [op] = setCore s' u (passed (getCore s u) p) := by
    unfold advance
    simp only [hf, List.any_cons, List.any_nil]
    simp [h1, h2, hb, hg, modCore, passed, after]
  rw [ha]
  refine ⟨getCore_setCore_self hx, fun v hv => ?_, ?_⟩
  · rw [getCore_setCore_ne _ hv, he, getCore_setCore_ne _ hv]
  · rw [he]; rfl

end Sys2Proof.Laws
end

