-- ==== Sys2Proof/Laws/Memory.lean ====
section
/-! SUPPORT. The memories of bytes: reading after a write, and that every operation that writes rows keeps their canonical
form. -/

namespace Sys2Proof.Machine

/-! ## Reading after writing -/

theorem tget_append_left {α : Type} (d : α) (x y : Tbl α) (k : Nat) (h : ∀ e ∈ y, e.1 ≠ k) : tget d (x ++ y) k = tget d x k := by
  induction x with
  | nil =>
    induction y with
    | nil => rfl
    | cons e y ih =>
      have := h e (by simp)
      simp only [List.nil_append, tget, this, if_false] at ih ⊢
      exact ih fun e he => h e (by simp [he])
  | cons e x ih => simp only [List.cons_append, tget, ih]

theorem tget_append_right {α : Type} (d : α) (x y : Tbl α) (k : Nat) (h : ∀ e ∈ x, e.1 ≠ k) : tget d (x ++ y) k = tget d y k := by
  induction x with
  | nil => rfl
  | cons e x ih =>
    have := h e (by simp)
    simp only [List.cons_append, tget, this, if_false]
    exact ih fun e he => h e (by simp [he])

theorem tget_filter {α : Type} (d : α) (p : Nat → Bool) (t : Tbl α) (k : Nat) (h : p k = true) :
    tget d (t.filter fun e => p e.1) k = tget d t k := by
  induction t with
  | nil => rfl
  | cons e t ih =>
    by_cases he : e.1 = k
    · simp [tget, he, h]
    · by_cases hp : p e.1 = true
      · simp [tget, he, hp, ih]
      · simp [tget, he, hp, ih]

/-- The byte at an address of the cells of a number. -/
theorem tget_cellsOf (v n a x : Nat) (h : a ≤ x) (hx : x < a + n) :
    tget unlistedByte (cellsOf a v n) x = BitVec.ofNat 8 (v >>> (8 * (x - a))) := by
  induction n generalizing v a with
  | zero => omega
  | succ n ih =>
    by_cases he : a = x
    · subst he
      simp only [cellsOf, Nat.sub_self, Nat.mul_zero, Nat.shiftRight_zero]
      split
      · rename_i hb
        rw [hb]
        have hne : ∀ e ∈ cellsOf (a + 1) (v / 256) n, e.1 ≠ a := fun e he => by have := cellsOf_range _ _ _ e he; omega
        have := tget_append_right unlistedByte (cellsOf (a + 1) (v / 256) n) [] a hne
        simpa [tget] using this
      · simp [tget]
    · have := ih (v / 256) (a + 1) (by omega) (by omega)
      have e : (v / 256) >>> (8 * (x - (a + 1))) = v >>> (8 * (x - a)) := by
        rw [show 256 = 2 ^ 8 from rfl, ← Nat.shiftRight_eq_div_pow, ← Nat.shiftRight_add]
        congr 1; omega
      simp only [cellsOf]
      split
      · rw [this, e]
      · simp only [tget, he, if_false]; rw [this, e]

/-- A write puts its bytes where it writes, little-endian, and leaves every other byte as it was. -/
theorem memByte_memWrite (m : List Host.Cell) (a v n x : Nat) :
    memByte (memWrite m a v n) x = if a ≤ x ∧ x < a + n then BitVec.ofNat 8 (v >>> (8 * (x - a))) else memByte m x := by
  unfold memByte memWrite
  have below : ∀ e ∈ m.filter (fun c => decide (c.1 < a)), e.1 < a := fun e he => by simpa using (List.mem_filter.1 he).2
  have above : ∀ e ∈ m.filter (fun c => decide (a + n ≤ c.1)), a + n ≤ e.1 := fun e he => by simpa using (List.mem_filter.1 he).2
  have mid := cellsOf_range v n a
  split
  · rename_i h
    rw [List.append_assoc, tget_append_right _ _ _ _ fun e he => by have := below e he; omega,
      tget_append_left _ _ _ _ fun e he => by have := above e he; omega]
    exact tget_cellsOf v n a x h.1 h.2
  · rename_i h
    by_cases hx : x < a
    · rw [List.append_assoc, tget_append_left _ _ _ _ fun e he => by
        rcases List.mem_append.1 he with h' | h'
        · have := mid e h'; omega
        · have := above e h'; omega]
      exact tget_filter unlistedByte (fun k => decide (k < a)) m x (by simpa using hx)
    · rw [tget_append_right _ _ _ _ fun e he => by
        rcases List.mem_append.1 he with h' | h'
        · have := below e h'; omega
        · have := mid e h'; omega]
      exact tget_filter unlistedByte (fun k => decide (a + n ≤ k)) m x (by simp; omega)

/-! ## The canonical form of both memories -/

theorem storeWrite_wf (st : Store) (a v : Nat) (p : Bool) (w : Memory.wf st.cells = true) : Memory.wf (storeWrite st a v p).cells = true :=
  memWrite_wf st.cells a v 512 w

end Sys2Proof.Machine

namespace Sys2Proof

open Sys2Proof.Machine

theorem scratchWrite_memoryOk {s : State} (u r v : Nat) (p : Bool) (w : MemoryOk s) : MemoryOk (scratchWrite s u r v p) :=
  ⟨storeWrite_wf s.scratch _ v p w.1, w.2⟩

theorem hbmWrite_memoryOk {s : State} (n r v : Nat) (p : Bool) (w : MemoryOk s) : MemoryOk (hbmWrite s n r v p) :=
  ⟨w.1, storeWrite_wf s.hbm _ v p w.2⟩

/-- Rows written one after another keep the form. -/
theorem foldWrite_wf {α : Type} (f : α → Nat × Nat × Bool) (l : List α) (st : Store) (w : Memory.wf st.cells = true) :
    Memory.wf (l.foldl (fun st x => storeWrite st (f x).1 (f x).2.1 (f x).2.2) st).cells = true := by
  induction l generalizing st with
  | nil => exact w
  | cons x l ih => exact ih _ (storeWrite_wf st _ _ _ w)

/-- A load's or a restart's rows keep the form. -/
theorem fillKeeping_memoryOk {s : State} (u : Nat) (kept : Nat → Bool) (rows : List (Nat × Row)) (w : MemoryOk s) :
    MemoryOk (fillKeeping s u kept rows) := by
  refine ⟨?_, w.2⟩
  unfold fillKeeping
  exact foldWrite_wf (fun r : Nat × Row => (scratchAddr u r.1, r.2.toNat, false)) rows _ (filter_wf _ _ none w.1)

theorem fillRows_memoryOk {s : State} (u : Nat) (rows : List (Nat × Row)) (w : MemoryOk s) : MemoryOk (fillRows s u rows) :=
  fillKeeping_memoryOk u _ rows w

/-- A byte of a core's row after the row is written, and every other byte of the scratchpads. -/
theorem scratch_after_write (s : State) (u r v x : Nat) (p : Bool) :
    memByte (scratchWrite s u r v p).scratch.cells x
      = if scratchAddr u r ≤ x ∧ x < scratchAddr u r + 512 then BitVec.ofNat 8 (v >>> (8 * (x - scratchAddr u r)))
        else memByte s.scratch.cells x :=
  memByte_memWrite _ _ _ _ _

/-- The same of a row of a stack. -/
theorem hbm_after_write (s : State) (n r v x : Nat) (p : Bool) :
    memByte (hbmWrite s n r v p).hbm.cells x
      = if hbmAddr n r ≤ x ∧ x < hbmAddr n r + 512 then BitVec.ofNat 8 (v >>> (8 * (x - hbmAddr n r))) else memByte s.hbm.cells x :=
  memByte_memWrite _ _ _ _ _

end Sys2Proof
end

