-- ==== Sys2Proof/WellFormed.lean ====
section
/-! DEFINITION. Which commands are well formed: the opcode of a slot command and the slots that may hold its kind (R109, R110),
and the lengths and ranges that the types of the other commands' operands leave open. An ill-formed slot command still has its meaning
(R110: OPCODE). -/

namespace Sys2Proof

/-- The opcode of a slot command, with where it issues (R111 to R158). -/
def Instr.slotOp? : Instr → Option (Issue × Nat)
  | .add a _ => some (a, 0x01)
  | .sub a _ => some (a, 0x02)
  | .and_ a _ => some (a, 0x03)
  | .or_ a _ => some (a, 0x04)
  | .xor_ a _ => some (a, 0x05)
  | .shl a _ => some (a, 0x06)
  | .shr a _ => some (a, 0x07)
  | .sar a _ => some (a, 0x08)
  | .cmpeq a _ => some (a, 0x09)
  | .cmplt a _ => some (a, 0x0A)
  | .cmpltu a _ => some (a, 0x0B)
  | .sel a _ => some (a, 0x0C)
  | .min_ a _ => some (a, 0x0D)
  | .max_ a _ => some (a, 0x0E)
  | .mul a _ => some (a, 0x10)
  | .mulhu a _ => some (a, 0x11)
  | .hash_ a _ => some (a, 0x12)
  | .movi a _ => some (a, 0x13)
  | .orsh a _ => some (a, 0x14)
  | .rdc a _ => some (a, 0x15)
  | .ldrow a _ => some (a, 0x40)
  | .strow a _ => some (a, 0x41)
  | .clrw a _ => some (a, 0x42)
  | .jmp a _ => some (a, 0x80)
  | .beqz a _ => some (a, 0x81)
  | .bnez a _ => some (a, 0x82)
  | .bltz a _ => some (a, 0x83)
  | .bgez a _ => some (a, 0x84)
  | .jal a _ => some (a, 0x85)
  | .jr a _ => some (a, 0x86)
  | .waitc a _ => some (a, 0x88)
  | .waits a _ => some (a, 0x89)
  | .waitConditionMet _ _ => none
  | .stallRelease _ _ => none
  | .send a _ => some (a, 0x8A)
  | .msgSend a _ => some (a, 0x8B)
  | .msgRelease a _ => some (a, 0x8B)
  | .msgClose a _ => some (a, 0x8B)
  | .msgResume a _ => some (a, 0x8B)
  | .dmaHbmToRows a _ => some (a, 0x8C)
  | .dmaRowsToHbm a _ => some (a, 0x8C)
  | .spush a _ => some (a, 0x8D)
  | .sigchk a _ => some (a, 0x8E)
  | .halt a _ => some (a, 0x8F)
  | .vadd a _ => some (a, 0xC0)
  | .vsub a _ => some (a, 0xC1)
  | .vmul a _ => some (a, 0xC2)
  | .vfma a _ => some (a, 0xC3)
  | .vmax a _ => some (a, 0xC4)
  | .vmin a _ => some (a, 0xC5)
  | .vand a _ => some (a, 0xC6)
  | .vor a _ => some (a, 0xC7)
  | .vxor a _ => some (a, 0xC8)
  | .vcmplt a _ => some (a, 0xC9)
  | .vcmpeq a _ => some (a, 0xCA)
  | .vsel a _ => some (a, 0xCB)
  | .vshl a _ => some (a, 0xCC)
  | .vshr a _ => some (a, 0xCD)
  | .vld a _ => some (a, 0xD0)
  | .vst a _ => some (a, 0xD1)
  | .vbc a _ => some (a, 0xD2)
  | .vext a _ => some (a, 0xD3)
  | .vrsum a _ => some (a, 0xE0)
  | .vrmax a _ => some (a, 0xE1)
  | .vrmin a _ => some (a, 0xE2)
  | .vcvt a _ => some (a, 0xF0)
  | .vexp2 a _ => some (a, 0xF1)
  | .vlog2 a _ => some (a, 0xF2)
  | .vrcp a _ => some (a, 0xF3)
  | .vrsqrt a _ => some (a, 0xF4)
  | .feed a _ => some (a, 0x20)
  | .fstop a _ => some (a, 0x21)
  | .ldw a _ => some (a, 0x28)
  | .swap a _ => some (a, 0x29)
  | .pass a _ => some (a, 0x2A)
  | .tclr a _ => some (a, 0x2B)
  | .mvm a _ => some (a, 0x30)
  | .drain a _ => some (a, 0x38)
  | .chkown a _ => some (a, 0x3C)
  | .chkcs a _ => some (a, 0x3D)
  | .feedRowGroupRead _ => none
  | .ldwBegin _ => none
  | .passBegin _ => none
  | .vectorEntry _ => none
  | .addToTally _ => none
  | .drainVector _ => none
  | .mvmBegin _ => none
  | .chkcsTest _ => none
  | .chkownHandover _ => none
  | .programFault _ => none
  | .scrub _ _ => none
  | .streamRowWrite _ _ _ => none
  | .tokenRowWrite _ _ _ => none
  | .creditBeat _ _ => none
  | .forkFire _ _ => none
  | .joinFire _ _ => none
  | .fireSteered _ _ => none
  | .noProgress _ => none
  | .drainEnd _ => none
  | .drainLimit _ => none
  | .contextDrainTimeout _ => none
  | .load _ => none
  | .placementStart _ => none
  | .unload => none
  | .write _ _ => none
  | .message _ _ => none
  | .dmaRead _ _ => none
  | .dmaWrite _ _ => none
  | .gather _ _ => none
  | .readReply _ _ => none
  | .ack _ _ => none
  | .nak _ _ => none
  | .packetHop _ _ _ => none
  | .resendTimeout _ _ => none
  | .resend _ _ => none
  | .flowClose _ _ => none
  | .reorderContextClose _ _ => none
  | .epochFlip => none
  | .fabricDrain => none
  | .refresh _ _ => none
  | .patrolScrub _ _ => none
  | .loamCopyBCheck _ => none
  | .hbmTbl _ _ _ _ => none
  | .exportJob => none
  | .portTraining _ _ _ _ => none
  | .retrain _ _ _ => none
  | .laneLockLoss _ _ => none
  | .data _ _ => none
  | .doorbell _ _ _ => none
  | .syncReq _ _ _ _ _ => none
  | .setTime _ _ => none
  | .replay _ _ => none
  | .replayTimeout _ => none
  | .idle _ _ => none
  | .idleSend _ => none
  | .controlFlit _ _ => none
  | .descriptorFetch _ _ _ => none
  | .run _ _ => none
  | .inputDelivery _ _ _ => none
  | .outputWrite _ _ => none
  | .commitGateOpen _ _ => none
  | .countersEvent _ => none
  | .hifRing _ _ _ => none
  | .acceptGrade => none
  | .closePass => none
  | .powerOn _ => none
  | .coldStart _ _ _ => none
  | .timingPortChoice => none
  | .sourceFailure _ => none
  | .relock _ => none
  | .chooseTimingPort _ => none
  | .withdrawTimingPort => none
  | .handover _ _ _ => none
  | .dieTimeCheck => none
  | .twoWireWake _ => none
  | .linkSignalWake _ => none
  | .wake _ => none
  | .mainReturn => none
  | .mainSag => none
  | .auxiliarySag => none
  | .saveWindowEnd _ _ => none
  | .brownOut _ => none
  | .t0Expiry _ => none
  | .thermalTrip => none
  | .tripLatchClear _ => none
  | .sensorRefresh _ _ _ _ _ => none
  | .pgInLow => none
  | .linkReset => none
  | .linkResetRelease => none
  | .nap => none
  | .leaveNap => none
  | .recess => none
  | .waveSlot _ => none
  | .subWave _ _ => none
  | .railRegulationTimeout _ => none
  | .pwrCap _ => none
  | .limiterSample _ _ _ _ => none
  | .dieLinkTraining _ _ _ _ => none
  | .hbmTraining _ _ _ _ _ => none
  | .exam _ => none
  | .rollCall _ _ _ => none
  | .reconcile => none
  | .pointBucketDrop => none
  | .microQuiz _ _ => none
  | .detentionQuiz _ _ => none
  | .chkSuspect _ => none
  | .chkCtrl _ => none
  | .recovery _ _ => none
  | .recoveryStepAck _ => none
  | .recoveryStepTimeout _ => none
  | .stepExecute _ _ => none
  | .fenceRequest _ _ => none
  | .reseat _ _ => none
  | .reportPersist _ => none
  | .datagram => none
  | .managementRouteUp => none
  | .rptRoute _ => none
  | .rptRdidx _ => none
  | .tstFdmclr _ => none
  | .lifecycle _ _ => none
  | .keyRotate _ _ => none
  | .fwActivate _ _ => none
  | .firmwareSwitch => none
  | .hpOpen _ _ => none
  | .testAccess _ _ => none
  | .powerCap _ _ => none
  | .fuseProgram _ _ => none
  | .fwLoad _ _ => none
  | .attestReport _ _ _ => none
  | .identityCertificate _ _ => none
  | .setPointer _ _ => none
  | .readWord _ => none
  | .writeWord _ _ => none
  | .readWakeSource => none
  | .readStatus => none
  | .managementFrame _ => none
  | .readService _ => none
  | .controlRead _ _ => none
  | .controlWrite _ _ => none
  | .registerWrite _ _ => none
  | .tTick => none
  | .retiringEpochRelease => none
  | .managementRouteDown => none
  | .railLeavesRegulation _ => none
  | .nop _ => none
  | .auth _ _ => none
  | .authHoldEnd => none

/-- The slots that hold opcodes of a kind in some profile (R109). -/
def slotsOf (opc : Nat) : List Nat :=
  if opc ≤ 0x15 then [0, 1]
  else if opc ≤ 0x21 then [2]
  else if opc ≤ 0x2B then [3]
  else if opc ≤ 0x30 then [4]
  else if opc ≤ 0x38 then [5]
  else if opc ≤ 0x3D then [6]
  else if opc ≤ 0x42 then [2]
  else if opc ≤ 0x8F then [1, 3]
  else if opc ≤ 0xCD then [4]
  else if opc ≤ 0xD3 then [5]
  else if opc ≤ 0xE2 then [6]
  else [7]

/-- Whether a slot may hold an opcode. -/
def slotOk (x : Issue × Nat) : Bool := (slotsOf x.2).contains x.1.slot.toNat

/-- Whether a packet as the link carries it has at most 8 body flits, four to a row, and as many rows as they fill (R354). -/
def HostPacket.wf (h : HostPacket) : Bool :=
  let n := (h.head.extractLsb' 61 4).toNat
  decide (n ≤ 8) && n % 4 == 0 && decide (h.rows.length = n / 4)

/-- Whether an image names each unit and each segment once, keeps every bundle inside the largest instruction store and every
segment inside its numbers (R62, R286, R324). -/
def Image.wf (im : Image) : Bool :=
  decide ((im.units.map (·.logical)).Nodup) && decide ((im.segs.map (·.id)).Nodup) && im.segs.all (fun g => decide (g.id < 8192))
    && im.units.all fun i => i.bundles.all fun b => decide (b.1 < 1024)

/-- Whether the operands that no slot holds are in their ranges: the words of a register write (R893), the packets of a link flit, the
regions of a power sample (R716), the entries of a DOORBELL (R511), the parts of an image. -/
def Instr.operandsOk : Instr → Bool
  | .registerWrite offset values => offset.toNat % 8 == 0 && decide (1 ≤ values.length ∧ values.length ≤ 64)
  | .data _ f => f.packets.all HostPacket.wf
  | .doorbell _ f entries => f.packets.isEmpty && decide (1 ≤ entries.length ∧ entries.length ≤ 13)
  | .idle _ f => f.packets.isEmpty
  | .limiterSample _ _ _ hottest => decide hottest.Nodup
  | .rollCall failed routers _ => decide failed.Nodup && decide routers.Nodup
  | .dieLinkTraining _ _ _ failed => decide (failed.length ≤ 8)
  | .load img => img.wf
  | .add _ _ => true
  | .sub _ _ => true
  | .and_ _ _ => true
  | .or_ _ _ => true
  | .xor_ _ _ => true
  | .shl _ _ => true
  | .shr _ _ => true
  | .sar _ _ => true
  | .cmpeq _ _ => true
  | .cmplt _ _ => true
  | .cmpltu _ _ => true
  | .sel _ _ => true
  | .min_ _ _ => true
  | .max_ _ _ => true
  | .mul _ _ => true
  | .mulhu _ _ => true
  | .hash_ _ _ => true
  | .movi _ _ => true
  | .orsh _ _ => true
  | .rdc _ _ => true
  | .ldrow _ _ => true
  | .strow _ _ => true
  | .clrw _ _ => true
  | .jmp _ _ => true
  | .beqz _ _ => true
  | .bnez _ _ => true
  | .bltz _ _ => true
  | .bgez _ _ => true
  | .jal _ _ => true
  | .jr _ _ => true
  | .waitc _ _ => true
  | .waits _ _ => true
  | .waitConditionMet _ _ => true
  | .stallRelease _ _ => true
  | .send _ _ => true
  | .msgSend _ _ => true
  | .msgRelease _ _ => true
  | .msgClose _ _ => true
  | .msgResume _ _ => true
  | .dmaHbmToRows _ _ => true
  | .dmaRowsToHbm _ _ => true
  | .spush _ _ => true
  | .sigchk _ _ => true
  | .halt _ _ => true
  | .vadd _ _ => true
  | .vsub _ _ => true
  | .vmul _ _ => true
  | .vfma _ _ => true
  | .vmax _ _ => true
  | .vmin _ _ => true
  | .vand _ _ => true
  | .vor _ _ => true
  | .vxor _ _ => true
  | .vcmplt _ _ => true
  | .vcmpeq _ _ => true
  | .vsel _ _ => true
  | .vshl _ _ => true
  | .vshr _ _ => true
  | .vld _ _ => true
  | .vst _ _ => true
  | .vbc _ _ => true
  | .vext _ _ => true
  | .vrsum _ _ => true
  | .vrmax _ _ => true
  | .vrmin _ _ => true
  | .vcvt _ _ => true
  | .vexp2 _ _ => true
  | .vlog2 _ _ => true
  | .vrcp _ _ => true
  | .vrsqrt _ _ => true
  | .feed _ _ => true
  | .fstop _ _ => true
  | .ldw _ _ => true
  | .swap _ _ => true
  | .pass _ _ => true
  | .tclr _ _ => true
  | .mvm _ _ => true
  | .drain _ _ => true
  | .chkown _ _ => true
  | .chkcs _ _ => true
  | .feedRowGroupRead _ => true
  | .ldwBegin _ => true
  | .passBegin _ => true
  | .vectorEntry _ => true
  | .addToTally _ => true
  | .drainVector _ => true
  | .mvmBegin _ => true
  | .chkcsTest _ => true
  | .chkownHandover _ => true
  | .programFault _ => true
  | .scrub _ _ => true
  | .streamRowWrite _ _ _ => true
  | .tokenRowWrite _ _ _ => true
  | .creditBeat _ _ => true
  | .forkFire _ _ => true
  | .joinFire _ _ => true
  | .fireSteered _ _ => true
  | .noProgress _ => true
  | .drainEnd _ => true
  | .drainLimit _ => true
  | .contextDrainTimeout _ => true
  | .placementStart _ => true
  | .unload => true
  | .write _ _ => true
  | .message _ _ => true
  | .dmaRead _ _ => true
  | .dmaWrite _ _ => true
  | .gather _ _ => true
  | .readReply _ _ => true
  | .ack _ _ => true
  | .nak _ _ => true
  | .packetHop _ _ _ => true
  | .resendTimeout _ _ => true
  | .resend _ _ => true
  | .flowClose _ _ => true
  | .reorderContextClose _ _ => true
  | .epochFlip => true
  | .fabricDrain => true
  | .refresh _ _ => true
  | .patrolScrub _ _ => true
  | .loamCopyBCheck _ => true
  | .hbmTbl _ _ _ _ => true
  | .exportJob => true
  | .portTraining _ _ _ _ => true
  | .retrain _ _ _ => true
  | .laneLockLoss _ _ => true
  | .syncReq _ _ _ _ _ => true
  | .setTime _ _ => true
  | .replay _ _ => true
  | .replayTimeout _ => true
  | .idleSend _ => true
  | .controlFlit _ _ => true
  | .descriptorFetch _ _ _ => true
  | .run _ _ => true
  | .inputDelivery _ _ _ => true
  | .outputWrite _ _ => true
  | .commitGateOpen _ _ => true
  | .countersEvent _ => true
  | .hifRing _ _ _ => true
  | .acceptGrade => true
  | .closePass => true
  | .powerOn _ => true
  | .coldStart _ _ _ => true
  | .timingPortChoice => true
  | .sourceFailure _ => true
  | .relock _ => true
  | .chooseTimingPort _ => true
  | .withdrawTimingPort => true
  | .handover _ _ _ => true
  | .dieTimeCheck => true
  | .twoWireWake _ => true
  | .linkSignalWake _ => true
  | .wake _ => true
  | .mainReturn => true
  | .mainSag => true
  | .auxiliarySag => true
  | .saveWindowEnd _ _ => true
  | .brownOut _ => true
  | .t0Expiry _ => true
  | .thermalTrip => true
  | .tripLatchClear _ => true
  | .sensorRefresh _ _ _ _ _ => true
  | .pgInLow => true
  | .linkReset => true
  | .linkResetRelease => true
  | .nap => true
  | .leaveNap => true
  | .recess => true
  | .waveSlot _ => true
  | .subWave _ _ => true
  | .railRegulationTimeout _ => true
  | .pwrCap _ => true
  | .hbmTraining _ _ _ _ _ => true
  | .exam _ => true
  | .reconcile => true
  | .pointBucketDrop => true
  | .microQuiz _ _ => true
  | .detentionQuiz _ _ => true
  | .chkSuspect _ => true
  | .chkCtrl _ => true
  | .recovery _ _ => true
  | .recoveryStepAck _ => true
  | .recoveryStepTimeout _ => true
  | .stepExecute _ _ => true
  | .fenceRequest _ _ => true
  | .reseat _ _ => true
  | .reportPersist _ => true
  | .datagram => true
  | .managementRouteUp => true
  | .rptRoute _ => true
  | .rptRdidx _ => true
  | .tstFdmclr _ => true
  | .lifecycle _ _ => true
  | .keyRotate _ _ => true
  | .fwActivate _ _ => true
  | .firmwareSwitch => true
  | .hpOpen _ _ => true
  | .testAccess _ _ => true
  | .powerCap _ _ => true
  | .fuseProgram _ _ => true
  | .fwLoad _ _ => true
  | .attestReport _ _ _ => true
  | .identityCertificate _ _ => true
  | .setPointer _ _ => true
  | .readWord _ => true
  | .writeWord _ _ => true
  | .readWakeSource => true
  | .readStatus => true
  | .managementFrame _ => true
  | .readService _ => true
  | .controlRead _ _ => true
  | .controlWrite _ _ => true
  | .tTick => true
  | .retiringEpochRelease => true
  | .managementRouteDown => true
  | .railLeavesRegulation _ => true
  | .nop _ => true
  | .auth _ _ => true
  | .authHoldEnd => true

/-- Whether a command is well formed. -/
def Instr.wf (i : Instr) : Bool := i.operandsOk && match i.slotOp? with | some x => slotOk x | none => true

end Sys2Proof
end

