-- ==== Sys2Proof/Laws/PerInstr.lean ====
section
/-! SUPPORT. One lemma for each command, of the family Formed: a command that a slot holds has no operand outside its range, and
some slot of some profile holds its opcode. -/

namespace Sys2Proof.Laws.Formed

/-- What the family says of a command. -/
def Statement (i : Instr) : Prop := ∀ x, i.slotOp? = some x → i.operandsOk = true ∧ slotsOf x.2 ≠ []

theorem add (a : Issue) (w : BitVec 56) : Statement (.add a w) := by
  intro x h
  cases h
  exact ⟨rfl, by simp [slotsOf]⟩
theorem sub (a : Issue) (w : BitVec 56) : Statement (.sub a w) := by
  intro x h
  cases h
  exact ⟨rfl, by simp [slotsOf]⟩
theorem and_ (a : Issue) (w : BitVec 56) : Statement (.and_ a w) := by
  intro x h
  cases h
  exact ⟨rfl, by simp [slotsOf]⟩
theorem or_ (a : Issue) (w : BitVec 56) : Statement (.or_ a w) := by
  intro x h
  cases h
  exact ⟨rfl, by simp [slotsOf]⟩
theorem xor_ (a : Issue) (w : BitVec 56) : Statement (.xor_ a w) := by
  intro x h
  cases h
  exact ⟨rfl, by simp [slotsOf]⟩
theorem shl (a : Issue) (w : BitVec 56) : Statement (.shl a w) := by
  intro x h
  cases h
  exact ⟨rfl, by simp [slotsOf]⟩
theorem shr (a : Issue) (w : BitVec 56) : Statement (.shr a w) := by
  intro x h
  cases h
  exact ⟨rfl, by simp [slotsOf]⟩
theorem sar (a : Issue) (w : BitVec 56) : Statement (.sar a w) := by
  intro x h
  cases h
  exact ⟨rfl, by simp [slotsOf]⟩
theorem cmpeq (a : Issue) (w : BitVec 56) : Statement (.cmpeq a w) := by
  intro x h
  cases h
  exact ⟨rfl, by simp [slotsOf]⟩
theorem cmplt (a : Issue) (w : BitVec 56) : Statement (.cmplt a w) := by
  intro x h
  cases h
  exact ⟨rfl, by simp [slotsOf]⟩
theorem cmpltu (a : Issue) (w : BitVec 56) : Statement (.cmpltu a w) := by
  intro x h
  cases h
  exact ⟨rfl, by simp [slotsOf]⟩
theorem sel (a : Issue) (w : BitVec 56) : Statement (.sel a w) := by
  intro x h
  cases h
  exact ⟨rfl, by simp [slotsOf]⟩
theorem min_ (a : Issue) (w : BitVec 56) : Statement (.min_ a w) := by
  intro x h
  cases h
  exact ⟨rfl, by simp [slotsOf]⟩
theorem max_ (a : Issue) (w : BitVec 56) : Statement (.max_ a w) := by
  intro x h
  cases h
  exact ⟨rfl, by simp [slotsOf]⟩
theorem mul (a : Issue) (w : BitVec 56) : Statement (.mul a w) := by
  intro x h
  cases h
  exact ⟨rfl, by simp [slotsOf]⟩
theorem mulhu (a : Issue) (w : BitVec 56) : Statement (.mulhu a w) := by
  intro x h
  cases h
  exact ⟨rfl, by simp [slotsOf]⟩
theorem hash_ (a : Issue) (w : BitVec 56) : Statement (.hash_ a w) := by
  intro x h
  cases h
  exact ⟨rfl, by simp [slotsOf]⟩
theorem movi (a : Issue) (w : BitVec 56) : Statement (.movi a w) := by
  intro x h
  cases h
  exact ⟨rfl, by simp [slotsOf]⟩
theorem orsh (a : Issue) (w : BitVec 56) : Statement (.orsh a w) := by
  intro x h
  cases h
  exact ⟨rfl, by simp [slotsOf]⟩
theorem rdc (a : Issue) (w : BitVec 56) : Statement (.rdc a w) := by
  intro x h
  cases h
  exact ⟨rfl, by simp [slotsOf]⟩
theorem ldrow (a : Issue) (w : BitVec 56) : Statement (.ldrow a w) := by
  intro x h
  cases h
  exact ⟨rfl, by simp [slotsOf]⟩
theorem strow (a : Issue) (w : BitVec 56) : Statement (.strow a w) := by
  intro x h
  cases h
  exact ⟨rfl, by simp [slotsOf]⟩
theorem clrw (a : Issue) (w : BitVec 56) : Statement (.clrw a w) := by
  intro x h
  cases h
  exact ⟨rfl, by simp [slotsOf]⟩
theorem jmp (a : Issue) (w : BitVec 56) : Statement (.jmp a w) := by
  intro x h
  cases h
  exact ⟨rfl, by simp [slotsOf]⟩
theorem beqz (a : Issue) (w : BitVec 56) : Statement (.beqz a w) := by
  intro x h
  cases h
  exact ⟨rfl, by simp [slotsOf]⟩
theorem bnez (a : Issue) (w : BitVec 56) : Statement (.bnez a w) := by
  intro x h
  cases h
  exact ⟨rfl, by simp [slotsOf]⟩
theorem bltz (a : Issue) (w : BitVec 56) : Statement (.bltz a w) := by
  intro x h
  cases h
  exact ⟨rfl, by simp [slotsOf]⟩
theorem bgez (a : Issue) (w : BitVec 56) : Statement (.bgez a w) := by
  intro x h
  cases h
  exact ⟨rfl, by simp [slotsOf]⟩
theorem jal (a : Issue) (w : BitVec 56) : Statement (.jal a w) := by
  intro x h
  cases h
  exact ⟨rfl, by simp [slotsOf]⟩
theorem jr (a : Issue) (w : BitVec 56) : Statement (.jr a w) := by
  intro x h
  cases h
  exact ⟨rfl, by simp [slotsOf]⟩
theorem waitc (a : Issue) (w : BitVec 56) : Statement (.waitc a w) := by
  intro x h
  cases h
  exact ⟨rfl, by simp [slotsOf]⟩
theorem waits (a : Issue) (w : BitVec 56) : Statement (.waits a w) := by
  intro x h
  cases h
  exact ⟨rfl, by simp [slotsOf]⟩
theorem waitConditionMet (u : Site) (cycle : Nat) : Statement (.waitConditionMet u cycle) := by
  intro x h
  cases h
theorem stallRelease (u : Site) (cycle : Nat) : Statement (.stallRelease u cycle) := by
  intro x h
  cases h
theorem send (a : Issue) (w : BitVec 56) : Statement (.send a w) := by
  intro x h
  cases h
  exact ⟨rfl, by simp [slotsOf]⟩
theorem msgSend (a : Issue) (w : BitVec 56) : Statement (.msgSend a w) := by
  intro x h
  cases h
  exact ⟨rfl, by simp [slotsOf]⟩
theorem msgRelease (a : Issue) (w : BitVec 56) : Statement (.msgRelease a w) := by
  intro x h
  cases h
  exact ⟨rfl, by simp [slotsOf]⟩
theorem msgClose (a : Issue) (w : BitVec 56) : Statement (.msgClose a w) := by
  intro x h
  cases h
  exact ⟨rfl, by simp [slotsOf]⟩
theorem msgResume (a : Issue) (w : BitVec 56) : Statement (.msgResume a w) := by
  intro x h
  cases h
  exact ⟨rfl, by simp [slotsOf]⟩
theorem dmaHbmToRows (a : Issue) (w : BitVec 56) : Statement (.dmaHbmToRows a w) := by
  intro x h
  cases h
  exact ⟨rfl, by simp [slotsOf]⟩
theorem dmaRowsToHbm (a : Issue) (w : BitVec 56) : Statement (.dmaRowsToHbm a w) := by
  intro x h
  cases h
  exact ⟨rfl, by simp [slotsOf]⟩
theorem spush (a : Issue) (w : BitVec 56) : Statement (.spush a w) := by
  intro x h
  cases h
  exact ⟨rfl, by simp [slotsOf]⟩
theorem sigchk (a : Issue) (w : BitVec 56) : Statement (.sigchk a w) := by
  intro x h
  cases h
  exact ⟨rfl, by simp [slotsOf]⟩
theorem halt (a : Issue) (w : BitVec 56) : Statement (.halt a w) := by
  intro x h
  cases h
  exact ⟨rfl, by simp [slotsOf]⟩
theorem vadd (a : Issue) (w : BitVec 56) : Statement (.vadd a w) := by
  intro x h
  cases h
  exact ⟨rfl, by simp [slotsOf]⟩
theorem vsub (a : Issue) (w : BitVec 56) : Statement (.vsub a w) := by
  intro x h
  cases h
  exact ⟨rfl, by simp [slotsOf]⟩
theorem vmul (a : Issue) (w : BitVec 56) : Statement (.vmul a w) := by
  intro x h
  cases h
  exact ⟨rfl, by simp [slotsOf]⟩
theorem vfma (a : Issue) (w : BitVec 56) : Statement (.vfma a w) := by
  intro x h
  cases h
  exact ⟨rfl, by simp [slotsOf]⟩
theorem vmax (a : Issue) (w : BitVec 56) : Statement (.vmax a w) := by
  intro x h
  cases h
  exact ⟨rfl, by simp [slotsOf]⟩
theorem vmin (a : Issue) (w : BitVec 56) : Statement (.vmin a w) := by
  intro x h
  cases h
  exact ⟨rfl, by simp [slotsOf]⟩
theorem vand (a : Issue) (w : BitVec 56) : Statement (.vand a w) := by
  intro x h
  cases h
  exact ⟨rfl, by simp [slotsOf]⟩
theorem vor (a : Issue) (w : BitVec 56) : Statement (.vor a w) := by
  intro x h
  cases h
  exact ⟨rfl, by simp [slotsOf]⟩
theorem vxor (a : Issue) (w : BitVec 56) : Statement (.vxor a w) := by
  intro x h
  cases h
  exact ⟨rfl, by simp [slotsOf]⟩
theorem vcmplt (a : Issue) (w : BitVec 56) : Statement (.vcmplt a w) := by
  intro x h
  cases h
  exact ⟨rfl, by simp [slotsOf]⟩
theorem vcmpeq (a : Issue) (w : BitVec 56) : Statement (.vcmpeq a w) := by
  intro x h
  cases h
  exact ⟨rfl, by simp [slotsOf]⟩
theorem vsel (a : Issue) (w : BitVec 56) : Statement (.vsel a w) := by
  intro x h
  cases h
  exact ⟨rfl, by simp [slotsOf]⟩
theorem vshl (a : Issue) (w : BitVec 56) : Statement (.vshl a w) := by
  intro x h
  cases h
  exact ⟨rfl, by simp [slotsOf]⟩
theorem vshr (a : Issue) (w : BitVec 56) : Statement (.vshr a w) := by
  intro x h
  cases h
  exact ⟨rfl, by simp [slotsOf]⟩
theorem vld (a : Issue) (w : BitVec 56) : Statement (.vld a w) := by
  intro x h
  cases h
  exact ⟨rfl, by simp [slotsOf]⟩
theorem vst (a : Issue) (w : BitVec 56) : Statement (.vst a w) := by
  intro x h
  cases h
  exact ⟨rfl, by simp [slotsOf]⟩
theorem vbc (a : Issue) (w : BitVec 56) : Statement (.vbc a w) := by
  intro x h
  cases h
  exact ⟨rfl, by simp [slotsOf]⟩
theorem vext (a : Issue) (w : BitVec 56) : Statement (.vext a w) := by
  intro x h
  cases h
  exact ⟨rfl, by simp [slotsOf]⟩
theorem vrsum (a : Issue) (w : BitVec 56) : Statement (.vrsum a w) := by
  intro x h
  cases h
  exact ⟨rfl, by simp [slotsOf]⟩
theorem vrmax (a : Issue) (w : BitVec 56) : Statement (.vrmax a w) := by
  intro x h
  cases h
  exact ⟨rfl, by simp [slotsOf]⟩
theorem vrmin (a : Issue) (w : BitVec 56) : Statement (.vrmin a w) := by
  intro x h
  cases h
  exact ⟨rfl, by simp [slotsOf]⟩
theorem vcvt (a : Issue) (w : BitVec 56) : Statement (.vcvt a w) := by
  intro x h
  cases h
  exact ⟨rfl, by simp [slotsOf]⟩
theorem vexp2 (a : Issue) (w : BitVec 56) : Statement (.vexp2 a w) := by
  intro x h
  cases h
  exact ⟨rfl, by simp [slotsOf]⟩
theorem vlog2 (a : Issue) (w : BitVec 56) : Statement (.vlog2 a w) := by
  intro x h
  cases h
  exact ⟨rfl, by simp [slotsOf]⟩
theorem vrcp (a : Issue) (w : BitVec 56) : Statement (.vrcp a w) := by
  intro x h
  cases h
  exact ⟨rfl, by simp [slotsOf]⟩
theorem vrsqrt (a : Issue) (w : BitVec 56) : Statement (.vrsqrt a w) := by
  intro x h
  cases h
  exact ⟨rfl, by simp [slotsOf]⟩
theorem feed (a : Issue) (w : BitVec 88) : Statement (.feed a w) := by
  intro x h
  cases h
  exact ⟨rfl, by simp [slotsOf]⟩
theorem fstop (a : Issue) (w : BitVec 88) : Statement (.fstop a w) := by
  intro x h
  cases h
  exact ⟨rfl, by simp [slotsOf]⟩
theorem ldw (a : Issue) (w : BitVec 56) : Statement (.ldw a w) := by
  intro x h
  cases h
  exact ⟨rfl, by simp [slotsOf]⟩
theorem swap (a : Issue) (w : BitVec 56) : Statement (.swap a w) := by
  intro x h
  cases h
  exact ⟨rfl, by simp [slotsOf]⟩
theorem pass (a : Issue) (w : BitVec 56) : Statement (.pass a w) := by
  intro x h
  cases h
  exact ⟨rfl, by simp [slotsOf]⟩
theorem tclr (a : Issue) (w : BitVec 56) : Statement (.tclr a w) := by
  intro x h
  cases h
  exact ⟨rfl, by simp [slotsOf]⟩
theorem mvm (a : Issue) (w : BitVec 88) : Statement (.mvm a w) := by
  intro x h
  cases h
  exact ⟨rfl, by simp [slotsOf]⟩
theorem drain (a : Issue) (w : BitVec 56) : Statement (.drain a w) := by
  intro x h
  cases h
  exact ⟨rfl, by simp [slotsOf]⟩
theorem chkown (a : Issue) (w : BitVec 56) : Statement (.chkown a w) := by
  intro x h
  cases h
  exact ⟨rfl, by simp [slotsOf]⟩
theorem chkcs (a : Issue) (w : BitVec 56) : Statement (.chkcs a w) := by
  intro x h
  cases h
  exact ⟨rfl, by simp [slotsOf]⟩
theorem feedRowGroupRead (u : Site) : Statement (.feedRowGroupRead u) := by
  intro x h
  cases h
theorem ldwBegin (u : Site) : Statement (.ldwBegin u) := by
  intro x h
  cases h
theorem passBegin (u : Site) : Statement (.passBegin u) := by
  intro x h
  cases h
theorem vectorEntry (u : Site) : Statement (.vectorEntry u) := by
  intro x h
  cases h
theorem addToTally (x : TallyInput) : Statement (.addToTally x) := by
  intro x h
  cases h
theorem drainVector (u : Site) : Statement (.drainVector u) := by
  intro x h
  cases h
theorem mvmBegin (u : Site) : Statement (.mvmBegin u) := by
  intro x h
  cases h
theorem chkcsTest (u : Site) : Statement (.chkcsTest u) := by
  intro x h
  cases h
theorem chkownHandover (u : Site) : Statement (.chkownHandover u) := by
  intro x h
  cases h
theorem programFault (u : Site) : Statement (.programFault u) := by
  intro x h
  cases h
theorem scrub (u : Site) (otherWrite : Bool) : Statement (.scrub u otherWrite) := by
  intro x h
  cases h
theorem streamRowWrite (p : Plc) (seg : Fin 8192) (errs : List (Fin 32 × Nat)) : Statement (.streamRowWrite p seg errs) := by
  intro x h
  cases h
theorem tokenRowWrite (p : Plc) (seg : Fin 8192) (errs : List (Fin 32 × Nat)) : Statement (.tokenRowWrite p seg errs) := by
  intro x h
  cases h
theorem creditBeat (g : SegName) (b : CreditBits) : Statement (.creditBeat g b) := by
  intro x h
  cases h
theorem forkFire (c : Cluster) (e : BitVec 3) : Statement (.forkFire c e) := by
  intro x h
  cases h
theorem joinFire (c : Cluster) (e : BitVec 3) : Statement (.joinFire c e) := by
  intro x h
  cases h
theorem fireSteered (c : Cluster) (e : BitVec 3) : Statement (.fireSteered c e) := by
  intro x h
  cases h
theorem noProgress (p : Plc) : Statement (.noProgress p) := by
  intro x h
  cases h
theorem drainEnd (p : Plc) : Statement (.drainEnd p) := by
  intro x h
  cases h
theorem drainLimit (p : Plc) : Statement (.drainLimit p) := by
  intro x h
  cases h
theorem contextDrainTimeout (p : Plc) : Statement (.contextDrainTimeout p) := by
  intro x h
  cases h
theorem load (img : Image) : Statement (.load img) := by
  intro x h
  cases h
theorem placementStart (p : Plc) : Statement (.placementStart p) := by
  intro x h
  cases h
theorem unload : Statement .unload := by
  intro x h
  cases h
theorem write (i : Nat) (d : Damage) : Statement (.write i d) := by
  intro x h
  cases h
theorem message (i : Nat) (d : Damage) : Statement (.message i d) := by
  intro x h
  cases h
theorem dmaRead (i : Nat) (d : Damage) : Statement (.dmaRead i d) := by
  intro x h
  cases h
theorem dmaWrite (i : Nat) (d : Damage) : Statement (.dmaWrite i d) := by
  intro x h
  cases h
theorem gather (i : Nat) (d : Damage) : Statement (.gather i d) := by
  intro x h
  cases h
theorem readReply (i : Nat) (d : Damage) : Statement (.readReply i d) := by
  intro x h
  cases h
theorem ack (i : Nat) (d : Damage) : Statement (.ack i d) := by
  intro x h
  cases h
theorem nak (i : Nat) (d : Damage) : Statement (.nak i d) := by
  intro x h
  cases h
theorem packetHop (i : Nat) (d : Dir) (h : HopMade) : Statement (.packetHop i d h) := by
  intro x h
  cases h
theorem resendTimeout (ep : Nat) (rec : Nat) : Statement (.resendTimeout ep rec) := by
  intro x h
  cases h
theorem resend (ep : Nat) (rec : Nat) : Statement (.resend ep rec) := by
  intro x h
  cases h
theorem flowClose (ep : Nat) (dst : Epid) : Statement (.flowClose ep dst) := by
  intro x h
  cases h
theorem reorderContextClose (ep : Nat) (src : Epid) : Statement (.reorderContextClose ep src) := by
  intro x h
  cases h
theorem epochFlip : Statement .epochFlip := by
  intro x h
  cases h
theorem fabricDrain : Statement .fabricDrain := by
  intro x h
  cases h
theorem refresh (t : Tile) (channel : Bool) : Statement (.refresh t channel) := by
  intro x h
  cases h
theorem patrolScrub (t : Tile) (otherWrite : Bool) : Statement (.patrolScrub t otherWrite) := by
  intro x h
  cases h
theorem loamCopyBCheck (p : Plc) : Statement (.loamCopyBCheck p) := by
  intro x h
  cases h
theorem hbmTbl (t : Tile) (d : Fin 64) (word : Bool) (v : Word) : Statement (.hbmTbl t d word v) := by
  intro x h
  cases h
theorem exportJob : Statement .exportJob := by
  intro x h
  cases h
theorem portTraining (n : Port) (saved : Bool) (locked : BitVec 2) (accepted : BitVec 2) : Statement (.portTraining n saved locked accepted) := by
  intro x h
  cases h
theorem retrain (n : Port) (cause : RetrainCause) (accepted : BitVec 2) : Statement (.retrain n cause accepted) := by
  intro x h
  cases h
theorem laneLockLoss (n : Port) (lane : Bool) : Statement (.laneLockLoss n lane) := by
  intro x h
  cases h
theorem data (n : Port) (f : Flit) : Statement (.data n f) := by
  intro x h
  cases h
theorem doorbell (n : Port) (f : Flit) (entries : List (BitVec 9 × BitVec 32)) : Statement (.doorbell n f entries) := by
  intro x h
  cases h
theorem syncReq (n : Port) (t1 : BitVec 128) (k2 : BitVec 4) (ticks3 : BitVec 16) (k3 : BitVec 4) : Statement (.syncReq n t1 k2 ticks3 k3) := by
  intro x h
  cases h
theorem setTime (n : Port) (adj : Word) : Statement (.setTime n adj) := by
  intro x h
  cases h
theorem replay (n : Port) (expected : BitVec 12) : Statement (.replay n expected) := by
  intro x h
  cases h
theorem replayTimeout (n : Port) : Statement (.replayTimeout n) := by
  intro x h
  cases h
theorem idle (n : Port) (f : Flit) : Statement (.idle n f) := by
  intro x h
  cases h
theorem idleSend (n : Port) : Statement (.idleSend n) := by
  intro x h
  cases h
theorem controlFlit (n : Port) (request : BitVec 8) : Statement (.controlFlit n request) := by
  intro x h
  cases h
theorem descriptorFetch (r : Fin 9) (readOk : Bool) (words : BitVec 512) : Statement (.descriptorFetch r readOk words) := by
  intro x h
  cases h
theorem run (r : Plc) (index : BitVec 32) : Statement (.run r index) := by
  intro x h
  cases h
theorem inputDelivery (r : Plc) (readOk : Bool) (input : List Row) : Statement (.inputDelivery r readOk input) := by
  intro x h
  cases h
theorem outputWrite (i : Nat) (d : Damage) : Statement (.outputWrite i d) := by
  intro x h
  cases h
theorem commitGateOpen (r : Plc) (index : BitVec 32) : Statement (.commitGateOpen r index) := by
  intro x h
  cases h
theorem countersEvent (p : Plc) : Statement (.countersEvent p) := by
  intro x h
  cases h
theorem hifRing (r : Fin 19) (word : BitVec 2) (v : Word) : Statement (.hifRing r word v) := by
  intro x h
  cases h
theorem acceptGrade : Statement .acceptGrade := by
  intro x h
  cases h
theorem closePass : Statement .closePass := by
  intro x h
  cases h
theorem powerOn (mainInRange : Bool) : Statement (.powerOn mainInRange) := by
  intro x h
  cases h
theorem coldStart (lanes : Word) (trimmed : Bool) (locked : BitVec 32) : Statement (.coldStart lanes trimmed locked) := by
  intro x h
  cases h
theorem timingPortChoice : Statement .timingPortChoice := by
  intro x h
  cases h
theorem sourceFailure (cause : SourceCause) : Statement (.sourceFailure cause) := by
  intro x h
  cases h
theorem relock (fioTicks : Nat) : Statement (.relock fioTicks) := by
  intro x h
  cases h
theorem chooseTimingPort (n : Port) : Statement (.chooseTimingPort n) := by
  intro x h
  cases h
theorem withdrawTimingPort : Statement .withdrawTimingPort := by
  intro x h
  cases h
theorem handover (target : Port) (targetLost : Bool) (currentLost : Bool) : Statement (.handover target targetLost currentLost) := by
  intro x h
  cases h
theorem dieTimeCheck : Statement .dieTimeCheck := by
  intro x h
  cases h
theorem twoWireWake (address : BitVec 7) : Statement (.twoWireWake address) := by
  intro x h
  cases h
theorem linkSignalWake (n : Port) : Statement (.linkSignalWake n) := by
  intro x h
  cases h
theorem wake (mainInRange : Bool) : Statement (.wake mainInRange) := by
  intro x h
  cases h
theorem mainReturn : Statement .mainReturn := by
  intro x h
  cases h
theorem mainSag : Statement .mainSag := by
  intro x h
  cases h
theorem auxiliarySag : Statement .auxiliarySag := by
  intro x h
  cases h
theorem saveWindowEnd (headerWritten : Bool) (duration : BitVec 11) : Statement (.saveWindowEnd headerWritten duration) := by
  intro x h
  cases h
theorem brownOut (mainInRange : Bool) : Statement (.brownOut mainInRange) := by
  intro x h
  cases h
theorem t0Expiry (mainInRange : Bool) : Statement (.t0Expiry mainInRange) := by
  intro x h
  cases h
theorem thermalTrip : Statement .thermalTrip := by
  intro x h
  cases h
theorem tripLatchClear (mainInRange : Bool) : Statement (.tripLatchClear mainInRange) := by
  intro x h
  cases h
theorem sensorRefresh (r : Region) (temp : Int) (stackTemp : Int) (proctorTemp : Int) (volts : Nat) : Statement (.sensorRefresh r temp stackTemp proctorTemp volts) := by
  intro x h
  cases h
theorem pgInLow : Statement .pgInLow := by
  intro x h
  cases h
theorem linkReset : Statement .linkReset := by
  intro x h
  cases h
theorem linkResetRelease : Statement .linkResetRelease := by
  intro x h
  cases h
theorem nap : Statement .nap := by
  intro x h
  cases h
theorem leaveNap : Statement .leaveNap := by
  intro x h
  cases h
theorem recess : Statement .recess := by
  intro x h
  cases h
theorem waveSlot (r : Region) : Statement (.waveSlot r) := by
  intro x h
  cases h
theorem subWave (r : Region) (sub : Fin 5) : Statement (.subWave r sub) := by
  intro x h
  cases h
theorem railRegulationTimeout (r : Region) : Statement (.railRegulationTimeout r) := by
  intro x h
  cases h
theorem pwrCap (v : Word) : Statement (.pwrCap v) := by
  intro x h
  cases h
theorem limiterSample (avg100 : Nat) (avg1000 : Nat) (milliVolts : Nat) (hottest : List Region) : Statement (.limiterSample avg100 avg1000 milliVolts hottest) := by
  intro x h
  cases h
theorem dieLinkTraining (tile : Site) (link : Bool) (saved : Bool) (failed : List Nat) : Statement (.dieLinkTraining tile link saved failed) := by
  intro x h
  cases h
theorem hbmTraining (t : Tile) (channel saved : Bool) (pins : List Nat) (trained : Bool) : Statement (.hbmTraining t channel saved pins trained) := by
  intro x h
  cases h
theorem exam (f : ExamFindings) : Statement (.exam f) := by
  intro x h
  cases h
theorem rollCall (failed : List Site) (routers : List Region) (repairs : List (MNum × Bool × Fin 8 × Nat)) : Statement (.rollCall failed routers repairs) := by
  intro x h
  cases h
theorem reconcile : Statement .reconcile := by
  intro x h
  cases h
theorem pointBucketDrop : Statement .pointBucketDrop := by
  intro x h
  cases h
theorem microQuiz (u : Site) (r : QuizRun) : Statement (.microQuiz u r) := by
  intro x h
  cases h
theorem detentionQuiz (u : Site) (r : QuizRun) : Statement (.detentionQuiz u r) := by
  intro x h
  cases h
theorem chkSuspect (v : Word) : Statement (.chkSuspect v) := by
  intro x h
  cases h
theorem chkCtrl (v : Word) : Statement (.chkCtrl v) := by
  intro x h
  cases h
theorem recovery (p : Plc) (cause : RecCause) : Statement (.recovery p cause) := by
  intro x h
  cases h
theorem recoveryStepAck (p : Plc) : Statement (.recoveryStepAck p) := by
  intro x h
  cases h
theorem recoveryStepTimeout (p : Plc) : Statement (.recoveryStepTimeout p) := by
  intro x h
  cases h
theorem stepExecute (p : Plc) (vote : VoteResult) : Statement (.stepExecute p vote) := by
  intro x h
  cases h
theorem fenceRequest (v : Word) (request : BitVec 32) : Statement (.fenceRequest v request) := by
  intro x h
  cases h
theorem reseat (v : Word) (request : BitVec 32) : Statement (.reseat v request) := by
  intro x h
  cases h
theorem reportPersist (n : Fin 65) : Statement (.reportPersist n) := by
  intro x h
  cases h
theorem datagram : Statement .datagram := by
  intro x h
  cases h
theorem managementRouteUp : Statement .managementRouteUp := by
  intro x h
  cases h
theorem rptRoute (v : Word) : Statement (.rptRoute v) := by
  intro x h
  cases h
theorem rptRdidx (v : Word) : Statement (.rptRdidx v) := by
  intro x h
  cases h
theorem tstFdmclr (v : Word) : Statement (.tstFdmclr v) := by
  intro x h
  cases h
theorem lifecycle (readOk : Bool) (blk : BitVec 4096) : Statement (.lifecycle readOk blk) := by
  intro x h
  cases h
theorem keyRotate (readOk : Bool) (blk : BitVec 4096) : Statement (.keyRotate readOk blk) := by
  intro x h
  cases h
theorem fwActivate (readOk : Bool) (blk : BitVec 4096) : Statement (.fwActivate readOk blk) := by
  intro x h
  cases h
theorem firmwareSwitch : Statement .firmwareSwitch := by
  intro x h
  cases h
theorem hpOpen (readOk : Bool) (blk : BitVec 4096) : Statement (.hpOpen readOk blk) := by
  intro x h
  cases h
theorem testAccess (readOk : Bool) (blk : BitVec 4096) : Statement (.testAccess readOk blk) := by
  intro x h
  cases h
theorem powerCap (readOk : Bool) (blk : BitVec 4096) : Statement (.powerCap readOk blk) := by
  intro x h
  cases h
theorem fuseProgram (readOk : Bool) (blk : BitVec 4096) : Statement (.fuseProgram readOk blk) := by
  intro x h
  cases h
theorem fwLoad (v : Word) (img : FwImage) : Statement (.fwLoad v img) := by
  intro x h
  cases h
theorem attestReport (v : Word) (nonce : BitVec 256) (hostOk : Bool) : Statement (.attestReport v nonce hostOk) := by
  intro x h
  cases h
theorem identityCertificate (v : Word) (hostOk : Bool) : Statement (.identityCertificate v hostOk) := by
  intro x h
  cases h
theorem setPointer (offset : BitVec 32) (pec : Pec) : Statement (.setPointer offset pec) := by
  intro x h
  cases h
theorem readWord (pec : Pec) : Statement (.readWord pec) := by
  intro x h
  cases h
theorem writeWord (v : Word) (pec : Pec) : Statement (.writeWord v pec) := by
  intro x h
  cases h
theorem readWakeSource : Statement .readWakeSource := by
  intro x h
  cases h
theorem readStatus : Statement .readStatus := by
  intro x h
  cases h
theorem managementFrame (f : MgtFrame) : Statement (.managementFrame f) := by
  intro x h
  cases h
theorem readService (request : BitVec 128) : Statement (.readService request) := by
  intro x h
  cases h
theorem controlRead (i : Nat) (d : Damage) : Statement (.controlRead i d) := by
  intro x h
  cases h
theorem controlWrite (i : Nat) (d : Damage) : Statement (.controlWrite i d) := by
  intro x h
  cases h
theorem registerWrite (offset : BitVec 32) (values : List Word) : Statement (.registerWrite offset values) := by
  intro x h
  cases h
theorem tTick : Statement .tTick := by
  intro x h
  cases h
theorem retiringEpochRelease : Statement .retiringEpochRelease := by
  intro x h
  cases h
theorem managementRouteDown : Statement .managementRouteDown := by
  intro x h
  cases h
theorem railLeavesRegulation (r : RailLoss) : Statement (.railLeavesRegulation r) := by
  intro x h
  cases h
theorem nop (u : Site) : Statement (.nop u) := by
  intro x h
  cases h
theorem auth (readOk : Bool) (blk : BitVec 4096) : Statement (.auth readOk blk) := by
  intro x h
  cases h
theorem authHoldEnd : Statement .authHoldEnd := by
  intro x h
  cases h

end Sys2Proof.Laws.Formed
end

