-- ==== Sys2Proof/Laws/State.lean ====
section
/-! SUPPORT. What each update of one part of the state leaves of every part: one lemma for each field and update, true by unfolding. -/

namespace Sys2Proof.Machine

@[simp] theorem setCore_pending (s : State) (u : Nat) (c : Core) : (setCore s u c).pending = s.pending := rfl
@[simp] theorem setCore_free (s : State) (u : Nat) (c : Core) : (setCore s u c).free = s.free := rfl
@[simp] theorem setCore_fuses (s : State) (u : Nat) (c : Core) : (setCore s u c).fuses = s.fuses := rfl
@[simp] theorem setCore_clk (s : State) (u : Nat) (c : Core) : (setCore s u c).clk = s.clk := rfl
@[simp] theorem setCore_pwr (s : State) (u : Nat) (c : Core) : (setCore s u c).pwr = s.pwr := rfl
@[simp] theorem setCore_brg (s : State) (u : Nat) (c : Core) : (setCore s u c).brg = s.brg := rfl
@[simp] theorem setCore_chk (s : State) (u : Nat) (c : Core) : (setCore s u c).chk = s.chk := rfl
@[simp] theorem setCore_rcv (s : State) (u : Nat) (c : Core) : (setCore s u c).rcv = s.rcv := rfl
@[simp] theorem setCore_rpt (s : State) (u : Nat) (c : Core) : (setCore s u c).rpt = s.rpt := rfl
@[simp] theorem setCore_exm (s : State) (u : Nat) (c : Core) : (setCore s u c).exm = s.exm := rfl
@[simp] theorem setCore_sec (s : State) (u : Nat) (c : Core) : (setCore s u c).sec = s.sec := rfl
@[simp] theorem setCore_sbd (s : State) (u : Nat) (c : Core) : (setCore s u c).sbd = s.sbd := rfl
@[simp] theorem setCore_fab (s : State) (u : Nat) (c : Core) : (setCore s u c).fab = s.fab := rfl
@[simp] theorem setCore_ports (s : State) (u : Nat) (c : Core) : (setCore s u c).ports = s.ports := rfl
@[simp] theorem setCore_rings (s : State) (u : Nat) (c : Core) : (setCore s u c).rings = s.rings := rfl
@[simp] theorem setCore_descs (s : State) (u : Nat) (c : Core) : (setCore s u c).descs = s.descs := rfl
@[simp] theorem setCore_seqs (s : State) (u : Nat) (c : Core) : (setCore s u c).seqs = s.seqs := rfl
@[simp] theorem setCore_cmds (s : State) (u : Nat) (c : Core) : (setCore s u c).cmds = s.cmds := rfl
@[simp] theorem setCore_evDropped (s : State) (u : Nat) (c : Core) : (setCore s u c).evDropped = s.evDropped := rfl
@[simp] theorem setCore_plcs (s : State) (u : Nat) (c : Core) : (setCore s u c).plcs = s.plcs := rfl
@[simp] theorem setCore_cores (s : State) (u : Nat) (c : Core) : (setCore s u c).cores = tset core0 s.cores u c := rfl
@[simp] theorem setCore_mcores (s : State) (u : Nat) (c : Core) : (setCore s u c).mcores = s.mcores := rfl
@[simp] theorem setCore_scratch (s : State) (u : Nat) (c : Core) : (setCore s u c).scratch = s.scratch := rfl
@[simp] theorem setCore_hbm (s : State) (u : Nat) (c : Core) : (setCore s u c).hbm = s.hbm := rfl
@[simp] theorem setCore_tiles (s : State) (u : Nat) (c : Core) : (setCore s u c).tiles = s.tiles := rfl
@[simp] theorem setCore_switches (s : State) (u : Nat) (c : Core) : (setCore s u c).switches = s.switches := rfl
@[simp] theorem setCore_segs (s : State) (u : Nat) (c : Core) : (setCore s u c).segs = s.segs := rfl
@[simp] theorem setCore_sched (s : State) (u : Nat) (c : Core) : (setCore s u c).sched = s.sched := rfl
@[simp] theorem setCore_passDir (s : State) (u : Nat) (c : Core) : (setCore s u c).passDir = s.passDir := rfl
@[simp] theorem setCore_xport (s : State) (u : Nat) (c : Core) : (setCore s u c).xport = s.xport := rfl
@[simp] theorem setCore_out (s : State) (u : Nat) (c : Core) : (setCore s u c).out = s.out := rfl

@[simp] theorem setM_pending (s : State) (u : Nat) (m : MCore) : (setM s u m).pending = s.pending := rfl
@[simp] theorem setM_free (s : State) (u : Nat) (m : MCore) : (setM s u m).free = s.free := rfl
@[simp] theorem setM_fuses (s : State) (u : Nat) (m : MCore) : (setM s u m).fuses = s.fuses := rfl
@[simp] theorem setM_clk (s : State) (u : Nat) (m : MCore) : (setM s u m).clk = s.clk := rfl
@[simp] theorem setM_pwr (s : State) (u : Nat) (m : MCore) : (setM s u m).pwr = s.pwr := rfl
@[simp] theorem setM_brg (s : State) (u : Nat) (m : MCore) : (setM s u m).brg = s.brg := rfl
@[simp] theorem setM_chk (s : State) (u : Nat) (m : MCore) : (setM s u m).chk = s.chk := rfl
@[simp] theorem setM_rcv (s : State) (u : Nat) (m : MCore) : (setM s u m).rcv = s.rcv := rfl
@[simp] theorem setM_rpt (s : State) (u : Nat) (m : MCore) : (setM s u m).rpt = s.rpt := rfl
@[simp] theorem setM_exm (s : State) (u : Nat) (m : MCore) : (setM s u m).exm = s.exm := rfl
@[simp] theorem setM_sec (s : State) (u : Nat) (m : MCore) : (setM s u m).sec = s.sec := rfl
@[simp] theorem setM_sbd (s : State) (u : Nat) (m : MCore) : (setM s u m).sbd = s.sbd := rfl
@[simp] theorem setM_fab (s : State) (u : Nat) (m : MCore) : (setM s u m).fab = s.fab := rfl
@[simp] theorem setM_ports (s : State) (u : Nat) (m : MCore) : (setM s u m).ports = s.ports := rfl
@[simp] theorem setM_rings (s : State) (u : Nat) (m : MCore) : (setM s u m).rings = s.rings := rfl
@[simp] theorem setM_descs (s : State) (u : Nat) (m : MCore) : (setM s u m).descs = s.descs := rfl
@[simp] theorem setM_seqs (s : State) (u : Nat) (m : MCore) : (setM s u m).seqs = s.seqs := rfl
@[simp] theorem setM_cmds (s : State) (u : Nat) (m : MCore) : (setM s u m).cmds = s.cmds := rfl
@[simp] theorem setM_evDropped (s : State) (u : Nat) (m : MCore) : (setM s u m).evDropped = s.evDropped := rfl
@[simp] theorem setM_plcs (s : State) (u : Nat) (m : MCore) : (setM s u m).plcs = s.plcs := rfl
@[simp] theorem setM_cores (s : State) (u : Nat) (m : MCore) : (setM s u m).cores = s.cores := rfl
@[simp] theorem setM_mcores (s : State) (u : Nat) (m : MCore) : (setM s u m).mcores = tset mcore0 s.mcores u m := rfl
@[simp] theorem setM_scratch (s : State) (u : Nat) (m : MCore) : (setM s u m).scratch = s.scratch := rfl
@[simp] theorem setM_hbm (s : State) (u : Nat) (m : MCore) : (setM s u m).hbm = s.hbm := rfl
@[simp] theorem setM_tiles (s : State) (u : Nat) (m : MCore) : (setM s u m).tiles = s.tiles := rfl
@[simp] theorem setM_switches (s : State) (u : Nat) (m : MCore) : (setM s u m).switches = s.switches := rfl
@[simp] theorem setM_segs (s : State) (u : Nat) (m : MCore) : (setM s u m).segs = s.segs := rfl
@[simp] theorem setM_sched (s : State) (u : Nat) (m : MCore) : (setM s u m).sched = s.sched := rfl
@[simp] theorem setM_passDir (s : State) (u : Nat) (m : MCore) : (setM s u m).passDir = s.passDir := rfl
@[simp] theorem setM_xport (s : State) (u : Nat) (m : MCore) : (setM s u m).xport = s.xport := rfl
@[simp] theorem setM_out (s : State) (u : Nat) (m : MCore) : (setM s u m).out = s.out := rfl

@[simp] theorem setEp_pending (s : State) (k : Nat) (e : Endpoint) : (setEp s k e).pending = s.pending := rfl
@[simp] theorem setEp_free (s : State) (k : Nat) (e : Endpoint) : (setEp s k e).free = s.free := rfl
@[simp] theorem setEp_fuses (s : State) (k : Nat) (e : Endpoint) : (setEp s k e).fuses = s.fuses := rfl
@[simp] theorem setEp_clk (s : State) (k : Nat) (e : Endpoint) : (setEp s k e).clk = s.clk := rfl
@[simp] theorem setEp_pwr (s : State) (k : Nat) (e : Endpoint) : (setEp s k e).pwr = s.pwr := rfl
@[simp] theorem setEp_brg (s : State) (k : Nat) (e : Endpoint) : (setEp s k e).brg = s.brg := rfl
@[simp] theorem setEp_chk (s : State) (k : Nat) (e : Endpoint) : (setEp s k e).chk = s.chk := rfl
@[simp] theorem setEp_rcv (s : State) (k : Nat) (e : Endpoint) : (setEp s k e).rcv = s.rcv := rfl
@[simp] theorem setEp_rpt (s : State) (k : Nat) (e : Endpoint) : (setEp s k e).rpt = s.rpt := rfl
@[simp] theorem setEp_exm (s : State) (k : Nat) (e : Endpoint) : (setEp s k e).exm = s.exm := rfl
@[simp] theorem setEp_sec (s : State) (k : Nat) (e : Endpoint) : (setEp s k e).sec = s.sec := rfl
@[simp] theorem setEp_sbd (s : State) (k : Nat) (e : Endpoint) : (setEp s k e).sbd = s.sbd := rfl
@[simp] theorem setEp_fab (s : State) (k : Nat) (e : Endpoint) : (setEp s k e).fab = { s.fab with eps := tset endpoint0 s.fab.eps k e } := rfl
@[simp] theorem setEp_ports (s : State) (k : Nat) (e : Endpoint) : (setEp s k e).ports = s.ports := rfl
@[simp] theorem setEp_rings (s : State) (k : Nat) (e : Endpoint) : (setEp s k e).rings = s.rings := rfl
@[simp] theorem setEp_descs (s : State) (k : Nat) (e : Endpoint) : (setEp s k e).descs = s.descs := rfl
@[simp] theorem setEp_seqs (s : State) (k : Nat) (e : Endpoint) : (setEp s k e).seqs = s.seqs := rfl
@[simp] theorem setEp_cmds (s : State) (k : Nat) (e : Endpoint) : (setEp s k e).cmds = s.cmds := rfl
@[simp] theorem setEp_evDropped (s : State) (k : Nat) (e : Endpoint) : (setEp s k e).evDropped = s.evDropped := rfl
@[simp] theorem setEp_plcs (s : State) (k : Nat) (e : Endpoint) : (setEp s k e).plcs = s.plcs := rfl
@[simp] theorem setEp_cores (s : State) (k : Nat) (e : Endpoint) : (setEp s k e).cores = s.cores := rfl
@[simp] theorem setEp_mcores (s : State) (k : Nat) (e : Endpoint) : (setEp s k e).mcores = s.mcores := rfl
@[simp] theorem setEp_scratch (s : State) (k : Nat) (e : Endpoint) : (setEp s k e).scratch = s.scratch := rfl
@[simp] theorem setEp_hbm (s : State) (k : Nat) (e : Endpoint) : (setEp s k e).hbm = s.hbm := rfl
@[simp] theorem setEp_tiles (s : State) (k : Nat) (e : Endpoint) : (setEp s k e).tiles = s.tiles := rfl
@[simp] theorem setEp_switches (s : State) (k : Nat) (e : Endpoint) : (setEp s k e).switches = s.switches := rfl
@[simp] theorem setEp_segs (s : State) (k : Nat) (e : Endpoint) : (setEp s k e).segs = s.segs := rfl
@[simp] theorem setEp_sched (s : State) (k : Nat) (e : Endpoint) : (setEp s k e).sched = s.sched := rfl
@[simp] theorem setEp_passDir (s : State) (k : Nat) (e : Endpoint) : (setEp s k e).passDir = s.passDir := rfl
@[simp] theorem setEp_xport (s : State) (k : Nat) (e : Endpoint) : (setEp s k e).xport = s.xport := rfl
@[simp] theorem setEp_out (s : State) (k : Nat) (e : Endpoint) : (setEp s k e).out = s.out := rfl

@[simp] theorem setPlc_pending (s : State) (p : Nat) (x : Placement) : (setPlc s p x).pending = s.pending := rfl
@[simp] theorem setPlc_free (s : State) (p : Nat) (x : Placement) : (setPlc s p x).free = s.free := rfl
@[simp] theorem setPlc_fuses (s : State) (p : Nat) (x : Placement) : (setPlc s p x).fuses = s.fuses := rfl
@[simp] theorem setPlc_clk (s : State) (p : Nat) (x : Placement) : (setPlc s p x).clk = s.clk := rfl
@[simp] theorem setPlc_pwr (s : State) (p : Nat) (x : Placement) : (setPlc s p x).pwr = s.pwr := rfl
@[simp] theorem setPlc_brg (s : State) (p : Nat) (x : Placement) : (setPlc s p x).brg = s.brg := rfl
@[simp] theorem setPlc_chk (s : State) (p : Nat) (x : Placement) : (setPlc s p x).chk = s.chk := rfl
@[simp] theorem setPlc_rcv (s : State) (p : Nat) (x : Placement) : (setPlc s p x).rcv = s.rcv := rfl
@[simp] theorem setPlc_rpt (s : State) (p : Nat) (x : Placement) : (setPlc s p x).rpt = s.rpt := rfl
@[simp] theorem setPlc_exm (s : State) (p : Nat) (x : Placement) : (setPlc s p x).exm = s.exm := rfl
@[simp] theorem setPlc_sec (s : State) (p : Nat) (x : Placement) : (setPlc s p x).sec = s.sec := rfl
@[simp] theorem setPlc_sbd (s : State) (p : Nat) (x : Placement) : (setPlc s p x).sbd = s.sbd := rfl
@[simp] theorem setPlc_fab (s : State) (p : Nat) (x : Placement) : (setPlc s p x).fab = s.fab := rfl
@[simp] theorem setPlc_ports (s : State) (p : Nat) (x : Placement) : (setPlc s p x).ports = s.ports := rfl
@[simp] theorem setPlc_rings (s : State) (p : Nat) (x : Placement) : (setPlc s p x).rings = s.rings := rfl
@[simp] theorem setPlc_descs (s : State) (p : Nat) (x : Placement) : (setPlc s p x).descs = s.descs := rfl
@[simp] theorem setPlc_seqs (s : State) (p : Nat) (x : Placement) : (setPlc s p x).seqs = s.seqs := rfl
@[simp] theorem setPlc_cmds (s : State) (p : Nat) (x : Placement) : (setPlc s p x).cmds = s.cmds := rfl
@[simp] theorem setPlc_evDropped (s : State) (p : Nat) (x : Placement) : (setPlc s p x).evDropped = s.evDropped := rfl
@[simp] theorem setPlc_plcs (s : State) (p : Nat) (x : Placement) : (setPlc s p x).plcs = tset plc0 s.plcs p x := rfl
@[simp] theorem setPlc_cores (s : State) (p : Nat) (x : Placement) : (setPlc s p x).cores = s.cores := rfl
@[simp] theorem setPlc_mcores (s : State) (p : Nat) (x : Placement) : (setPlc s p x).mcores = s.mcores := rfl
@[simp] theorem setPlc_scratch (s : State) (p : Nat) (x : Placement) : (setPlc s p x).scratch = s.scratch := rfl
@[simp] theorem setPlc_hbm (s : State) (p : Nat) (x : Placement) : (setPlc s p x).hbm = s.hbm := rfl
@[simp] theorem setPlc_tiles (s : State) (p : Nat) (x : Placement) : (setPlc s p x).tiles = s.tiles := rfl
@[simp] theorem setPlc_switches (s : State) (p : Nat) (x : Placement) : (setPlc s p x).switches = s.switches := rfl
@[simp] theorem setPlc_segs (s : State) (p : Nat) (x : Placement) : (setPlc s p x).segs = s.segs := rfl
@[simp] theorem setPlc_sched (s : State) (p : Nat) (x : Placement) : (setPlc s p x).sched = s.sched := rfl
@[simp] theorem setPlc_passDir (s : State) (p : Nat) (x : Placement) : (setPlc s p x).passDir = s.passDir := rfl
@[simp] theorem setPlc_xport (s : State) (p : Nat) (x : Placement) : (setPlc s p x).xport = s.xport := rfl
@[simp] theorem setPlc_out (s : State) (p : Nat) (x : Placement) : (setPlc s p x).out = s.out := rfl

@[simp] theorem setPort_pending (s : State) (n : Nat) (x : LinkPort) : (setPort s n x).pending = s.pending := rfl
@[simp] theorem setPort_free (s : State) (n : Nat) (x : LinkPort) : (setPort s n x).free = s.free := rfl
@[simp] theorem setPort_fuses (s : State) (n : Nat) (x : LinkPort) : (setPort s n x).fuses = s.fuses := rfl
@[simp] theorem setPort_clk (s : State) (n : Nat) (x : LinkPort) : (setPort s n x).clk = s.clk := rfl
@[simp] theorem setPort_pwr (s : State) (n : Nat) (x : LinkPort) : (setPort s n x).pwr = s.pwr := rfl
@[simp] theorem setPort_brg (s : State) (n : Nat) (x : LinkPort) : (setPort s n x).brg = s.brg := rfl
@[simp] theorem setPort_chk (s : State) (n : Nat) (x : LinkPort) : (setPort s n x).chk = s.chk := rfl
@[simp] theorem setPort_rcv (s : State) (n : Nat) (x : LinkPort) : (setPort s n x).rcv = s.rcv := rfl
@[simp] theorem setPort_rpt (s : State) (n : Nat) (x : LinkPort) : (setPort s n x).rpt = s.rpt := rfl
@[simp] theorem setPort_exm (s : State) (n : Nat) (x : LinkPort) : (setPort s n x).exm = s.exm := rfl
@[simp] theorem setPort_sec (s : State) (n : Nat) (x : LinkPort) : (setPort s n x).sec = s.sec := rfl
@[simp] theorem setPort_sbd (s : State) (n : Nat) (x : LinkPort) : (setPort s n x).sbd = s.sbd := rfl
@[simp] theorem setPort_fab (s : State) (n : Nat) (x : LinkPort) : (setPort s n x).fab = s.fab := rfl
@[simp] theorem setPort_ports (s : State) (n : Nat) (x : LinkPort) : (setPort s n x).ports = tset port0 s.ports n x := rfl
@[simp] theorem setPort_rings (s : State) (n : Nat) (x : LinkPort) : (setPort s n x).rings = s.rings := rfl
@[simp] theorem setPort_descs (s : State) (n : Nat) (x : LinkPort) : (setPort s n x).descs = s.descs := rfl
@[simp] theorem setPort_seqs (s : State) (n : Nat) (x : LinkPort) : (setPort s n x).seqs = s.seqs := rfl
@[simp] theorem setPort_cmds (s : State) (n : Nat) (x : LinkPort) : (setPort s n x).cmds = s.cmds := rfl
@[simp] theorem setPort_evDropped (s : State) (n : Nat) (x : LinkPort) : (setPort s n x).evDropped = s.evDropped := rfl
@[simp] theorem setPort_plcs (s : State) (n : Nat) (x : LinkPort) : (setPort s n x).plcs = s.plcs := rfl
@[simp] theorem setPort_cores (s : State) (n : Nat) (x : LinkPort) : (setPort s n x).cores = s.cores := rfl
@[simp] theorem setPort_mcores (s : State) (n : Nat) (x : LinkPort) : (setPort s n x).mcores = s.mcores := rfl
@[simp] theorem setPort_scratch (s : State) (n : Nat) (x : LinkPort) : (setPort s n x).scratch = s.scratch := rfl
@[simp] theorem setPort_hbm (s : State) (n : Nat) (x : LinkPort) : (setPort s n x).hbm = s.hbm := rfl
@[simp] theorem setPort_tiles (s : State) (n : Nat) (x : LinkPort) : (setPort s n x).tiles = s.tiles := rfl
@[simp] theorem setPort_switches (s : State) (n : Nat) (x : LinkPort) : (setPort s n x).switches = s.switches := rfl
@[simp] theorem setPort_segs (s : State) (n : Nat) (x : LinkPort) : (setPort s n x).segs = s.segs := rfl
@[simp] theorem setPort_sched (s : State) (n : Nat) (x : LinkPort) : (setPort s n x).sched = s.sched := rfl
@[simp] theorem setPort_passDir (s : State) (n : Nat) (x : LinkPort) : (setPort s n x).passDir = s.passDir := rfl
@[simp] theorem setPort_xport (s : State) (n : Nat) (x : LinkPort) : (setPort s n x).xport = s.xport := rfl
@[simp] theorem setPort_out (s : State) (n : Nat) (x : LinkPort) : (setPort s n x).out = s.out := rfl

@[simp] theorem setRing_pending (s : State) (r : Nat) (x : Ring) : (setRing s r x).pending = s.pending := rfl
@[simp] theorem setRing_free (s : State) (r : Nat) (x : Ring) : (setRing s r x).free = s.free := rfl
@[simp] theorem setRing_fuses (s : State) (r : Nat) (x : Ring) : (setRing s r x).fuses = s.fuses := rfl
@[simp] theorem setRing_clk (s : State) (r : Nat) (x : Ring) : (setRing s r x).clk = s.clk := rfl
@[simp] theorem setRing_pwr (s : State) (r : Nat) (x : Ring) : (setRing s r x).pwr = s.pwr := rfl
@[simp] theorem setRing_brg (s : State) (r : Nat) (x : Ring) : (setRing s r x).brg = s.brg := rfl
@[simp] theorem setRing_chk (s : State) (r : Nat) (x : Ring) : (setRing s r x).chk = s.chk := rfl
@[simp] theorem setRing_rcv (s : State) (r : Nat) (x : Ring) : (setRing s r x).rcv = s.rcv := rfl
@[simp] theorem setRing_rpt (s : State) (r : Nat) (x : Ring) : (setRing s r x).rpt = s.rpt := rfl
@[simp] theorem setRing_exm (s : State) (r : Nat) (x : Ring) : (setRing s r x).exm = s.exm := rfl
@[simp] theorem setRing_sec (s : State) (r : Nat) (x : Ring) : (setRing s r x).sec = s.sec := rfl
@[simp] theorem setRing_sbd (s : State) (r : Nat) (x : Ring) : (setRing s r x).sbd = s.sbd := rfl
@[simp] theorem setRing_fab (s : State) (r : Nat) (x : Ring) : (setRing s r x).fab = s.fab := rfl
@[simp] theorem setRing_ports (s : State) (r : Nat) (x : Ring) : (setRing s r x).ports = s.ports := rfl
@[simp] theorem setRing_rings (s : State) (r : Nat) (x : Ring) : (setRing s r x).rings = tset ring0 s.rings r x := rfl
@[simp] theorem setRing_descs (s : State) (r : Nat) (x : Ring) : (setRing s r x).descs = s.descs := rfl
@[simp] theorem setRing_seqs (s : State) (r : Nat) (x : Ring) : (setRing s r x).seqs = s.seqs := rfl
@[simp] theorem setRing_cmds (s : State) (r : Nat) (x : Ring) : (setRing s r x).cmds = s.cmds := rfl
@[simp] theorem setRing_evDropped (s : State) (r : Nat) (x : Ring) : (setRing s r x).evDropped = s.evDropped := rfl
@[simp] theorem setRing_plcs (s : State) (r : Nat) (x : Ring) : (setRing s r x).plcs = s.plcs := rfl
@[simp] theorem setRing_cores (s : State) (r : Nat) (x : Ring) : (setRing s r x).cores = s.cores := rfl
@[simp] theorem setRing_mcores (s : State) (r : Nat) (x : Ring) : (setRing s r x).mcores = s.mcores := rfl
@[simp] theorem setRing_scratch (s : State) (r : Nat) (x : Ring) : (setRing s r x).scratch = s.scratch := rfl
@[simp] theorem setRing_hbm (s : State) (r : Nat) (x : Ring) : (setRing s r x).hbm = s.hbm := rfl
@[simp] theorem setRing_tiles (s : State) (r : Nat) (x : Ring) : (setRing s r x).tiles = s.tiles := rfl
@[simp] theorem setRing_switches (s : State) (r : Nat) (x : Ring) : (setRing s r x).switches = s.switches := rfl
@[simp] theorem setRing_segs (s : State) (r : Nat) (x : Ring) : (setRing s r x).segs = s.segs := rfl
@[simp] theorem setRing_sched (s : State) (r : Nat) (x : Ring) : (setRing s r x).sched = s.sched := rfl
@[simp] theorem setRing_passDir (s : State) (r : Nat) (x : Ring) : (setRing s r x).passDir = s.passDir := rfl
@[simp] theorem setRing_xport (s : State) (r : Nat) (x : Ring) : (setRing s r x).xport = s.xport := rfl
@[simp] theorem setRing_out (s : State) (r : Nat) (x : Ring) : (setRing s r x).out = s.out := rfl

@[simp] theorem setTile_pending (s : State) (t : Nat) (x : PortTile) : (setTile s t x).pending = s.pending := rfl
@[simp] theorem setTile_free (s : State) (t : Nat) (x : PortTile) : (setTile s t x).free = s.free := rfl
@[simp] theorem setTile_fuses (s : State) (t : Nat) (x : PortTile) : (setTile s t x).fuses = s.fuses := rfl
@[simp] theorem setTile_clk (s : State) (t : Nat) (x : PortTile) : (setTile s t x).clk = s.clk := rfl
@[simp] theorem setTile_pwr (s : State) (t : Nat) (x : PortTile) : (setTile s t x).pwr = s.pwr := rfl
@[simp] theorem setTile_brg (s : State) (t : Nat) (x : PortTile) : (setTile s t x).brg = s.brg := rfl
@[simp] theorem setTile_chk (s : State) (t : Nat) (x : PortTile) : (setTile s t x).chk = s.chk := rfl
@[simp] theorem setTile_rcv (s : State) (t : Nat) (x : PortTile) : (setTile s t x).rcv = s.rcv := rfl
@[simp] theorem setTile_rpt (s : State) (t : Nat) (x : PortTile) : (setTile s t x).rpt = s.rpt := rfl
@[simp] theorem setTile_exm (s : State) (t : Nat) (x : PortTile) : (setTile s t x).exm = s.exm := rfl
@[simp] theorem setTile_sec (s : State) (t : Nat) (x : PortTile) : (setTile s t x).sec = s.sec := rfl
@[simp] theorem setTile_sbd (s : State) (t : Nat) (x : PortTile) : (setTile s t x).sbd = s.sbd := rfl
@[simp] theorem setTile_fab (s : State) (t : Nat) (x : PortTile) : (setTile s t x).fab = s.fab := rfl
@[simp] theorem setTile_ports (s : State) (t : Nat) (x : PortTile) : (setTile s t x).ports = s.ports := rfl
@[simp] theorem setTile_rings (s : State) (t : Nat) (x : PortTile) : (setTile s t x).rings = s.rings := rfl
@[simp] theorem setTile_descs (s : State) (t : Nat) (x : PortTile) : (setTile s t x).descs = s.descs := rfl
@[simp] theorem setTile_seqs (s : State) (t : Nat) (x : PortTile) : (setTile s t x).seqs = s.seqs := rfl
@[simp] theorem setTile_cmds (s : State) (t : Nat) (x : PortTile) : (setTile s t x).cmds = s.cmds := rfl
@[simp] theorem setTile_evDropped (s : State) (t : Nat) (x : PortTile) : (setTile s t x).evDropped = s.evDropped := rfl
@[simp] theorem setTile_plcs (s : State) (t : Nat) (x : PortTile) : (setTile s t x).plcs = s.plcs := rfl
@[simp] theorem setTile_cores (s : State) (t : Nat) (x : PortTile) : (setTile s t x).cores = s.cores := rfl
@[simp] theorem setTile_mcores (s : State) (t : Nat) (x : PortTile) : (setTile s t x).mcores = s.mcores := rfl
@[simp] theorem setTile_scratch (s : State) (t : Nat) (x : PortTile) : (setTile s t x).scratch = s.scratch := rfl
@[simp] theorem setTile_hbm (s : State) (t : Nat) (x : PortTile) : (setTile s t x).hbm = s.hbm := rfl
@[simp] theorem setTile_tiles (s : State) (t : Nat) (x : PortTile) : (setTile s t x).tiles = tset tile0 s.tiles t x := rfl
@[simp] theorem setTile_switches (s : State) (t : Nat) (x : PortTile) : (setTile s t x).switches = s.switches := rfl
@[simp] theorem setTile_segs (s : State) (t : Nat) (x : PortTile) : (setTile s t x).segs = s.segs := rfl
@[simp] theorem setTile_sched (s : State) (t : Nat) (x : PortTile) : (setTile s t x).sched = s.sched := rfl
@[simp] theorem setTile_passDir (s : State) (t : Nat) (x : PortTile) : (setTile s t x).passDir = s.passDir := rfl
@[simp] theorem setTile_xport (s : State) (t : Nat) (x : PortTile) : (setTile s t x).xport = s.xport := rfl
@[simp] theorem setTile_out (s : State) (t : Nat) (x : PortTile) : (setTile s t x).out = s.out := rfl

@[simp] theorem setSw_pending (s : State) (c : Nat) (x : Switch) : (setSw s c x).pending = s.pending := rfl
@[simp] theorem setSw_free (s : State) (c : Nat) (x : Switch) : (setSw s c x).free = s.free := rfl
@[simp] theorem setSw_fuses (s : State) (c : Nat) (x : Switch) : (setSw s c x).fuses = s.fuses := rfl
@[simp] theorem setSw_clk (s : State) (c : Nat) (x : Switch) : (setSw s c x).clk = s.clk := rfl
@[simp] theorem setSw_pwr (s : State) (c : Nat) (x : Switch) : (setSw s c x).pwr = s.pwr := rfl
@[simp] theorem setSw_brg (s : State) (c : Nat) (x : Switch) : (setSw s c x).brg = s.brg := rfl
@[simp] theorem setSw_chk (s : State) (c : Nat) (x : Switch) : (setSw s c x).chk = s.chk := rfl
@[simp] theorem setSw_rcv (s : State) (c : Nat) (x : Switch) : (setSw s c x).rcv = s.rcv := rfl
@[simp] theorem setSw_rpt (s : State) (c : Nat) (x : Switch) : (setSw s c x).rpt = s.rpt := rfl
@[simp] theorem setSw_exm (s : State) (c : Nat) (x : Switch) : (setSw s c x).exm = s.exm := rfl
@[simp] theorem setSw_sec (s : State) (c : Nat) (x : Switch) : (setSw s c x).sec = s.sec := rfl
@[simp] theorem setSw_sbd (s : State) (c : Nat) (x : Switch) : (setSw s c x).sbd = s.sbd := rfl
@[simp] theorem setSw_fab (s : State) (c : Nat) (x : Switch) : (setSw s c x).fab = s.fab := rfl
@[simp] theorem setSw_ports (s : State) (c : Nat) (x : Switch) : (setSw s c x).ports = s.ports := rfl
@[simp] theorem setSw_rings (s : State) (c : Nat) (x : Switch) : (setSw s c x).rings = s.rings := rfl
@[simp] theorem setSw_descs (s : State) (c : Nat) (x : Switch) : (setSw s c x).descs = s.descs := rfl
@[simp] theorem setSw_seqs (s : State) (c : Nat) (x : Switch) : (setSw s c x).seqs = s.seqs := rfl
@[simp] theorem setSw_cmds (s : State) (c : Nat) (x : Switch) : (setSw s c x).cmds = s.cmds := rfl
@[simp] theorem setSw_evDropped (s : State) (c : Nat) (x : Switch) : (setSw s c x).evDropped = s.evDropped := rfl
@[simp] theorem setSw_plcs (s : State) (c : Nat) (x : Switch) : (setSw s c x).plcs = s.plcs := rfl
@[simp] theorem setSw_cores (s : State) (c : Nat) (x : Switch) : (setSw s c x).cores = s.cores := rfl
@[simp] theorem setSw_mcores (s : State) (c : Nat) (x : Switch) : (setSw s c x).mcores = s.mcores := rfl
@[simp] theorem setSw_scratch (s : State) (c : Nat) (x : Switch) : (setSw s c x).scratch = s.scratch := rfl
@[simp] theorem setSw_hbm (s : State) (c : Nat) (x : Switch) : (setSw s c x).hbm = s.hbm := rfl
@[simp] theorem setSw_tiles (s : State) (c : Nat) (x : Switch) : (setSw s c x).tiles = s.tiles := rfl
@[simp] theorem setSw_switches (s : State) (c : Nat) (x : Switch) : (setSw s c x).switches = tset switch0 s.switches c x := rfl
@[simp] theorem setSw_segs (s : State) (c : Nat) (x : Switch) : (setSw s c x).segs = s.segs := rfl
@[simp] theorem setSw_sched (s : State) (c : Nat) (x : Switch) : (setSw s c x).sched = s.sched := rfl
@[simp] theorem setSw_passDir (s : State) (c : Nat) (x : Switch) : (setSw s c x).passDir = s.passDir := rfl
@[simp] theorem setSw_xport (s : State) (c : Nat) (x : Switch) : (setSw s c x).xport = s.xport := rfl
@[simp] theorem setSw_out (s : State) (c : Nat) (x : Switch) : (setSw s c x).out = s.out := rfl

@[simp] theorem setDescs_pending (s : State) (r : Nat) (l : List Desc) : (setDescs s r l).pending = s.pending := rfl
@[simp] theorem setDescs_free (s : State) (r : Nat) (l : List Desc) : (setDescs s r l).free = s.free := rfl
@[simp] theorem setDescs_fuses (s : State) (r : Nat) (l : List Desc) : (setDescs s r l).fuses = s.fuses := rfl
@[simp] theorem setDescs_clk (s : State) (r : Nat) (l : List Desc) : (setDescs s r l).clk = s.clk := rfl
@[simp] theorem setDescs_pwr (s : State) (r : Nat) (l : List Desc) : (setDescs s r l).pwr = s.pwr := rfl
@[simp] theorem setDescs_brg (s : State) (r : Nat) (l : List Desc) : (setDescs s r l).brg = s.brg := rfl
@[simp] theorem setDescs_chk (s : State) (r : Nat) (l : List Desc) : (setDescs s r l).chk = s.chk := rfl
@[simp] theorem setDescs_rcv (s : State) (r : Nat) (l : List Desc) : (setDescs s r l).rcv = s.rcv := rfl
@[simp] theorem setDescs_rpt (s : State) (r : Nat) (l : List Desc) : (setDescs s r l).rpt = s.rpt := rfl
@[simp] theorem setDescs_exm (s : State) (r : Nat) (l : List Desc) : (setDescs s r l).exm = s.exm := rfl
@[simp] theorem setDescs_sec (s : State) (r : Nat) (l : List Desc) : (setDescs s r l).sec = s.sec := rfl
@[simp] theorem setDescs_sbd (s : State) (r : Nat) (l : List Desc) : (setDescs s r l).sbd = s.sbd := rfl
@[simp] theorem setDescs_fab (s : State) (r : Nat) (l : List Desc) : (setDescs s r l).fab = s.fab := rfl
@[simp] theorem setDescs_ports (s : State) (r : Nat) (l : List Desc) : (setDescs s r l).ports = s.ports := rfl
@[simp] theorem setDescs_rings (s : State) (r : Nat) (l : List Desc) : (setDescs s r l).rings = s.rings := rfl
@[simp] theorem setDescs_descs (s : State) (r : Nat) (l : List Desc) : (setDescs s r l).descs = tset [] s.descs r l := rfl
@[simp] theorem setDescs_seqs (s : State) (r : Nat) (l : List Desc) : (setDescs s r l).seqs = s.seqs := rfl
@[simp] theorem setDescs_cmds (s : State) (r : Nat) (l : List Desc) : (setDescs s r l).cmds = s.cmds := rfl
@[simp] theorem setDescs_evDropped (s : State) (r : Nat) (l : List Desc) : (setDescs s r l).evDropped = s.evDropped := rfl
@[simp] theorem setDescs_plcs (s : State) (r : Nat) (l : List Desc) : (setDescs s r l).plcs = s.plcs := rfl
@[simp] theorem setDescs_cores (s : State) (r : Nat) (l : List Desc) : (setDescs s r l).cores = s.cores := rfl
@[simp] theorem setDescs_mcores (s : State) (r : Nat) (l : List Desc) : (setDescs s r l).mcores = s.mcores := rfl
@[simp] theorem setDescs_scratch (s : State) (r : Nat) (l : List Desc) : (setDescs s r l).scratch = s.scratch := rfl
@[simp] theorem setDescs_hbm (s : State) (r : Nat) (l : List Desc) : (setDescs s r l).hbm = s.hbm := rfl
@[simp] theorem setDescs_tiles (s : State) (r : Nat) (l : List Desc) : (setDescs s r l).tiles = s.tiles := rfl
@[simp] theorem setDescs_switches (s : State) (r : Nat) (l : List Desc) : (setDescs s r l).switches = s.switches := rfl
@[simp] theorem setDescs_segs (s : State) (r : Nat) (l : List Desc) : (setDescs s r l).segs = s.segs := rfl
@[simp] theorem setDescs_sched (s : State) (r : Nat) (l : List Desc) : (setDescs s r l).sched = s.sched := rfl
@[simp] theorem setDescs_passDir (s : State) (r : Nat) (l : List Desc) : (setDescs s r l).passDir = s.passDir := rfl
@[simp] theorem setDescs_xport (s : State) (r : Nat) (l : List Desc) : (setDescs s r l).xport = s.xport := rfl
@[simp] theorem setDescs_out (s : State) (r : Nat) (l : List Desc) : (setDescs s r l).out = s.out := rfl

@[simp] theorem putOut_pending (s : State) (o : Out) : (putOut s o).pending = s.pending := rfl
@[simp] theorem putOut_free (s : State) (o : Out) : (putOut s o).free = s.free := rfl
@[simp] theorem putOut_fuses (s : State) (o : Out) : (putOut s o).fuses = s.fuses := rfl
@[simp] theorem putOut_clk (s : State) (o : Out) : (putOut s o).clk = s.clk := rfl
@[simp] theorem putOut_pwr (s : State) (o : Out) : (putOut s o).pwr = s.pwr := rfl
@[simp] theorem putOut_brg (s : State) (o : Out) : (putOut s o).brg = s.brg := rfl
@[simp] theorem putOut_chk (s : State) (o : Out) : (putOut s o).chk = s.chk := rfl
@[simp] theorem putOut_rcv (s : State) (o : Out) : (putOut s o).rcv = s.rcv := rfl
@[simp] theorem putOut_rpt (s : State) (o : Out) : (putOut s o).rpt = s.rpt := rfl
@[simp] theorem putOut_exm (s : State) (o : Out) : (putOut s o).exm = s.exm := rfl
@[simp] theorem putOut_sec (s : State) (o : Out) : (putOut s o).sec = s.sec := rfl
@[simp] theorem putOut_sbd (s : State) (o : Out) : (putOut s o).sbd = s.sbd := rfl
@[simp] theorem putOut_fab (s : State) (o : Out) : (putOut s o).fab = s.fab := rfl
@[simp] theorem putOut_ports (s : State) (o : Out) : (putOut s o).ports = s.ports := rfl
@[simp] theorem putOut_rings (s : State) (o : Out) : (putOut s o).rings = s.rings := rfl
@[simp] theorem putOut_descs (s : State) (o : Out) : (putOut s o).descs = s.descs := rfl
@[simp] theorem putOut_seqs (s : State) (o : Out) : (putOut s o).seqs = s.seqs := rfl
@[simp] theorem putOut_cmds (s : State) (o : Out) : (putOut s o).cmds = s.cmds := rfl
@[simp] theorem putOut_evDropped (s : State) (o : Out) : (putOut s o).evDropped = s.evDropped := rfl
@[simp] theorem putOut_plcs (s : State) (o : Out) : (putOut s o).plcs = s.plcs := rfl
@[simp] theorem putOut_cores (s : State) (o : Out) : (putOut s o).cores = s.cores := rfl
@[simp] theorem putOut_mcores (s : State) (o : Out) : (putOut s o).mcores = s.mcores := rfl
@[simp] theorem putOut_scratch (s : State) (o : Out) : (putOut s o).scratch = s.scratch := rfl
@[simp] theorem putOut_hbm (s : State) (o : Out) : (putOut s o).hbm = s.hbm := rfl
@[simp] theorem putOut_tiles (s : State) (o : Out) : (putOut s o).tiles = s.tiles := rfl
@[simp] theorem putOut_switches (s : State) (o : Out) : (putOut s o).switches = s.switches := rfl
@[simp] theorem putOut_segs (s : State) (o : Out) : (putOut s o).segs = s.segs := rfl
@[simp] theorem putOut_sched (s : State) (o : Out) : (putOut s o).sched = s.sched := rfl
@[simp] theorem putOut_passDir (s : State) (o : Out) : (putOut s o).passDir = s.passDir := rfl
@[simp] theorem putOut_xport (s : State) (o : Out) : (putOut s o).xport = s.xport := rfl
@[simp] theorem putOut_out (s : State) (o : Out) : (putOut s o).out = s.out ++ [o] := rfl

@[simp] theorem bumpFree_pending (s : State) : (bumpFree s).pending = s.pending := rfl
@[simp] theorem bumpFree_free (s : State) : (bumpFree s).free = s.free + 1 := rfl
@[simp] theorem bumpFree_fuses (s : State) : (bumpFree s).fuses = s.fuses := rfl
@[simp] theorem bumpFree_clk (s : State) : (bumpFree s).clk = s.clk := rfl
@[simp] theorem bumpFree_pwr (s : State) : (bumpFree s).pwr = s.pwr := rfl
@[simp] theorem bumpFree_brg (s : State) : (bumpFree s).brg = s.brg := rfl
@[simp] theorem bumpFree_chk (s : State) : (bumpFree s).chk = s.chk := rfl
@[simp] theorem bumpFree_rcv (s : State) : (bumpFree s).rcv = s.rcv := rfl
@[simp] theorem bumpFree_rpt (s : State) : (bumpFree s).rpt = s.rpt := rfl
@[simp] theorem bumpFree_exm (s : State) : (bumpFree s).exm = s.exm := rfl
@[simp] theorem bumpFree_sec (s : State) : (bumpFree s).sec = s.sec := rfl
@[simp] theorem bumpFree_sbd (s : State) : (bumpFree s).sbd = s.sbd := rfl
@[simp] theorem bumpFree_fab (s : State) : (bumpFree s).fab = s.fab := rfl
@[simp] theorem bumpFree_ports (s : State) : (bumpFree s).ports = s.ports := rfl
@[simp] theorem bumpFree_rings (s : State) : (bumpFree s).rings = s.rings := rfl
@[simp] theorem bumpFree_descs (s : State) : (bumpFree s).descs = s.descs := rfl
@[simp] theorem bumpFree_seqs (s : State) : (bumpFree s).seqs = s.seqs := rfl
@[simp] theorem bumpFree_cmds (s : State) : (bumpFree s).cmds = s.cmds := rfl
@[simp] theorem bumpFree_evDropped (s : State) : (bumpFree s).evDropped = s.evDropped := rfl
@[simp] theorem bumpFree_plcs (s : State) : (bumpFree s).plcs = s.plcs := rfl
@[simp] theorem bumpFree_cores (s : State) : (bumpFree s).cores = s.cores := rfl
@[simp] theorem bumpFree_mcores (s : State) : (bumpFree s).mcores = s.mcores := rfl
@[simp] theorem bumpFree_scratch (s : State) : (bumpFree s).scratch = s.scratch := rfl
@[simp] theorem bumpFree_hbm (s : State) : (bumpFree s).hbm = s.hbm := rfl
@[simp] theorem bumpFree_tiles (s : State) : (bumpFree s).tiles = s.tiles := rfl
@[simp] theorem bumpFree_switches (s : State) : (bumpFree s).switches = s.switches := rfl
@[simp] theorem bumpFree_segs (s : State) : (bumpFree s).segs = s.segs := rfl
@[simp] theorem bumpFree_sched (s : State) : (bumpFree s).sched = s.sched := rfl
@[simp] theorem bumpFree_passDir (s : State) : (bumpFree s).passDir = s.passDir := rfl
@[simp] theorem bumpFree_xport (s : State) : (bumpFree s).xport = s.xport := rfl
@[simp] theorem bumpFree_out (s : State) : (bumpFree s).out = s.out := rfl

@[simp] theorem scratchWrite_pending (s : State) (u r data : Nat) (pois : Bool) : (scratchWrite s u r data pois).pending = s.pending := rfl
@[simp] theorem scratchWrite_free (s : State) (u r data : Nat) (pois : Bool) : (scratchWrite s u r data pois).free = s.free := rfl
@[simp] theorem scratchWrite_fuses (s : State) (u r data : Nat) (pois : Bool) : (scratchWrite s u r data pois).fuses = s.fuses := rfl
@[simp] theorem scratchWrite_clk (s : State) (u r data : Nat) (pois : Bool) : (scratchWrite s u r data pois).clk = s.clk := rfl
@[simp] theorem scratchWrite_pwr (s : State) (u r data : Nat) (pois : Bool) : (scratchWrite s u r data pois).pwr = s.pwr := rfl
@[simp] theorem scratchWrite_brg (s : State) (u r data : Nat) (pois : Bool) : (scratchWrite s u r data pois).brg = s.brg := rfl
@[simp] theorem scratchWrite_chk (s : State) (u r data : Nat) (pois : Bool) : (scratchWrite s u r data pois).chk = s.chk := rfl
@[simp] theorem scratchWrite_rcv (s : State) (u r data : Nat) (pois : Bool) : (scratchWrite s u r data pois).rcv = s.rcv := rfl
@[simp] theorem scratchWrite_rpt (s : State) (u r data : Nat) (pois : Bool) : (scratchWrite s u r data pois).rpt = s.rpt := rfl
@[simp] theorem scratchWrite_exm (s : State) (u r data : Nat) (pois : Bool) : (scratchWrite s u r data pois).exm = s.exm := rfl
@[simp] theorem scratchWrite_sec (s : State) (u r data : Nat) (pois : Bool) : (scratchWrite s u r data pois).sec = s.sec := rfl
@[simp] theorem scratchWrite_sbd (s : State) (u r data : Nat) (pois : Bool) : (scratchWrite s u r data pois).sbd = s.sbd := rfl
@[simp] theorem scratchWrite_fab (s : State) (u r data : Nat) (pois : Bool) : (scratchWrite s u r data pois).fab = s.fab := rfl
@[simp] theorem scratchWrite_ports (s : State) (u r data : Nat) (pois : Bool) : (scratchWrite s u r data pois).ports = s.ports := rfl
@[simp] theorem scratchWrite_rings (s : State) (u r data : Nat) (pois : Bool) : (scratchWrite s u r data pois).rings = s.rings := rfl
@[simp] theorem scratchWrite_descs (s : State) (u r data : Nat) (pois : Bool) : (scratchWrite s u r data pois).descs = s.descs := rfl
@[simp] theorem scratchWrite_seqs (s : State) (u r data : Nat) (pois : Bool) : (scratchWrite s u r data pois).seqs = s.seqs := rfl
@[simp] theorem scratchWrite_cmds (s : State) (u r data : Nat) (pois : Bool) : (scratchWrite s u r data pois).cmds = s.cmds := rfl
@[simp] theorem scratchWrite_evDropped (s : State) (u r data : Nat) (pois : Bool) : (scratchWrite s u r data pois).evDropped = s.evDropped := rfl
@[simp] theorem scratchWrite_plcs (s : State) (u r data : Nat) (pois : Bool) : (scratchWrite s u r data pois).plcs = s.plcs := rfl
@[simp] theorem scratchWrite_cores (s : State) (u r data : Nat) (pois : Bool) : (scratchWrite s u r data pois).cores = s.cores := rfl
@[simp] theorem scratchWrite_mcores (s : State) (u r data : Nat) (pois : Bool) : (scratchWrite s u r data pois).mcores = s.mcores := rfl
@[simp] theorem scratchWrite_scratch (s : State) (u r data : Nat) (pois : Bool) : (scratchWrite s u r data pois).scratch = storeWrite s.scratch (scratchAddr u r) data pois := rfl
@[simp] theorem scratchWrite_hbm (s : State) (u r data : Nat) (pois : Bool) : (scratchWrite s u r data pois).hbm = s.hbm := rfl
@[simp] theorem scratchWrite_tiles (s : State) (u r data : Nat) (pois : Bool) : (scratchWrite s u r data pois).tiles = s.tiles := rfl
@[simp] theorem scratchWrite_switches (s : State) (u r data : Nat) (pois : Bool) : (scratchWrite s u r data pois).switches = s.switches := rfl
@[simp] theorem scratchWrite_segs (s : State) (u r data : Nat) (pois : Bool) : (scratchWrite s u r data pois).segs = s.segs := rfl
@[simp] theorem scratchWrite_sched (s : State) (u r data : Nat) (pois : Bool) : (scratchWrite s u r data pois).sched = s.sched := rfl
@[simp] theorem scratchWrite_passDir (s : State) (u r data : Nat) (pois : Bool) : (scratchWrite s u r data pois).passDir = s.passDir := rfl
@[simp] theorem scratchWrite_xport (s : State) (u r data : Nat) (pois : Bool) : (scratchWrite s u r data pois).xport = s.xport := rfl
@[simp] theorem scratchWrite_out (s : State) (u r data : Nat) (pois : Bool) : (scratchWrite s u r data pois).out = s.out := rfl

@[simp] theorem hbmWrite_pending (s : State) (stack row data : Nat) (pois : Bool) : (hbmWrite s stack row data pois).pending = s.pending := rfl
@[simp] theorem hbmWrite_free (s : State) (stack row data : Nat) (pois : Bool) : (hbmWrite s stack row data pois).free = s.free := rfl
@[simp] theorem hbmWrite_fuses (s : State) (stack row data : Nat) (pois : Bool) : (hbmWrite s stack row data pois).fuses = s.fuses := rfl
@[simp] theorem hbmWrite_clk (s : State) (stack row data : Nat) (pois : Bool) : (hbmWrite s stack row data pois).clk = s.clk := rfl
@[simp] theorem hbmWrite_pwr (s : State) (stack row data : Nat) (pois : Bool) : (hbmWrite s stack row data pois).pwr = s.pwr := rfl
@[simp] theorem hbmWrite_brg (s : State) (stack row data : Nat) (pois : Bool) : (hbmWrite s stack row data pois).brg = s.brg := rfl
@[simp] theorem hbmWrite_chk (s : State) (stack row data : Nat) (pois : Bool) : (hbmWrite s stack row data pois).chk = s.chk := rfl
@[simp] theorem hbmWrite_rcv (s : State) (stack row data : Nat) (pois : Bool) : (hbmWrite s stack row data pois).rcv = s.rcv := rfl
@[simp] theorem hbmWrite_rpt (s : State) (stack row data : Nat) (pois : Bool) : (hbmWrite s stack row data pois).rpt = s.rpt := rfl
@[simp] theorem hbmWrite_exm (s : State) (stack row data : Nat) (pois : Bool) : (hbmWrite s stack row data pois).exm = s.exm := rfl
@[simp] theorem hbmWrite_sec (s : State) (stack row data : Nat) (pois : Bool) : (hbmWrite s stack row data pois).sec = s.sec := rfl
@[simp] theorem hbmWrite_sbd (s : State) (stack row data : Nat) (pois : Bool) : (hbmWrite s stack row data pois).sbd = s.sbd := rfl
@[simp] theorem hbmWrite_fab (s : State) (stack row data : Nat) (pois : Bool) : (hbmWrite s stack row data pois).fab = s.fab := rfl
@[simp] theorem hbmWrite_ports (s : State) (stack row data : Nat) (pois : Bool) : (hbmWrite s stack row data pois).ports = s.ports := rfl
@[simp] theorem hbmWrite_rings (s : State) (stack row data : Nat) (pois : Bool) : (hbmWrite s stack row data pois).rings = s.rings := rfl
@[simp] theorem hbmWrite_descs (s : State) (stack row data : Nat) (pois : Bool) : (hbmWrite s stack row data pois).descs = s.descs := rfl
@[simp] theorem hbmWrite_seqs (s : State) (stack row data : Nat) (pois : Bool) : (hbmWrite s stack row data pois).seqs = s.seqs := rfl
@[simp] theorem hbmWrite_cmds (s : State) (stack row data : Nat) (pois : Bool) : (hbmWrite s stack row data pois).cmds = s.cmds := rfl
@[simp] theorem hbmWrite_evDropped (s : State) (stack row data : Nat) (pois : Bool) : (hbmWrite s stack row data pois).evDropped = s.evDropped := rfl
@[simp] theorem hbmWrite_plcs (s : State) (stack row data : Nat) (pois : Bool) : (hbmWrite s stack row data pois).plcs = s.plcs := rfl
@[simp] theorem hbmWrite_cores (s : State) (stack row data : Nat) (pois : Bool) : (hbmWrite s stack row data pois).cores = s.cores := rfl
@[simp] theorem hbmWrite_mcores (s : State) (stack row data : Nat) (pois : Bool) : (hbmWrite s stack row data pois).mcores = s.mcores := rfl
@[simp] theorem hbmWrite_scratch (s : State) (stack row data : Nat) (pois : Bool) : (hbmWrite s stack row data pois).scratch = s.scratch := rfl
@[simp] theorem hbmWrite_hbm (s : State) (stack row data : Nat) (pois : Bool) : (hbmWrite s stack row data pois).hbm = storeWrite s.hbm (hbmAddr stack row) data pois := rfl
@[simp] theorem hbmWrite_tiles (s : State) (stack row data : Nat) (pois : Bool) : (hbmWrite s stack row data pois).tiles = s.tiles := rfl
@[simp] theorem hbmWrite_switches (s : State) (stack row data : Nat) (pois : Bool) : (hbmWrite s stack row data pois).switches = s.switches := rfl
@[simp] theorem hbmWrite_segs (s : State) (stack row data : Nat) (pois : Bool) : (hbmWrite s stack row data pois).segs = s.segs := rfl
@[simp] theorem hbmWrite_sched (s : State) (stack row data : Nat) (pois : Bool) : (hbmWrite s stack row data pois).sched = s.sched := rfl
@[simp] theorem hbmWrite_passDir (s : State) (stack row data : Nat) (pois : Bool) : (hbmWrite s stack row data pois).passDir = s.passDir := rfl
@[simp] theorem hbmWrite_xport (s : State) (stack row data : Nat) (pois : Bool) : (hbmWrite s stack row data pois).xport = s.xport := rfl
@[simp] theorem hbmWrite_out (s : State) (stack row data : Nat) (pois : Bool) : (hbmWrite s stack row data pois).out = s.out := rfl

end Sys2Proof.Machine
end

