-- ==== Sys2Proof/Tests/Slice0.lean ====
section
/-! SUPPORT. The well-formedness smoke test, unit tests with results worked out from the spec, and for every statement with hypotheses
states and operands that meet them, most with the conclusion checked there too. -/

set_option Elab.async false

namespace Sys2Proof.Tests

open Sys2Proof Sys2Proof.Machine

/-! ## Small states -/

/-- What a command answers. -/
def after_ (i : Instr) (s : State) (p : State → Bool) : Bool := match exec i s with | .next t => p t | _ => false
/-- A module whose clocks run. -/
def on : State := { State.reset with clk := { clock0 with gated := false } }
/-- A module with one running core. -/
def withCore (u : Site) (c : Core) : State := setCore on u.val { c with run := .running }
def isu (u : Site) (sl : Nat) : Issue := { u := u, slot := BitVec.ofNat 3 sl, more := false }
def val (v : Word) : PVal := { v := v, p := false }
/-- An S-core with 5 in g1 and -7 in g2. -/
def sCore : Core := { core0 with profile := .s, plc := some 0, gpr := [(1, val 5), (2, val (-7))] }
def sState : State := withCore 21 sCore
/-- Destination g3, sources g1 and g2. -/
def abd : Nat := 3 * 2 ^ 46 + 1 * 2 ^ 36 + 2 * 2 ^ 26
/-- Whether a slot's command, alone in its bundle, puts one result on its way and changes nothing else. -/
def gives (s : State) (i : Instr) (a : Issue) (lat : Nat) (d : Dest) (v q : Nat) : Bool :=
  after_ i s fun t => t == setCore s a.u.val (passed (getCore s a.u.val) (resultOf (getCore s a.u.val) a.slot.toNat lat d v q 0))
/-- Whether a command leaves one core so and changes nothing else. -/
def leaves (s : State) (i : Instr) (u : Nat) (c : Core) : Bool := after_ i s fun t => t == setCore s u c

/-- Whether a command leaves the state as it is. -/
def same (i : Instr) (s : State) : Bool := after_ i s fun t => t == s

/-! ## Well-formedness: one ill-formed term for each check -/
def pk : HostPacket := { head := 0, rows := [] }
def flit : Flit :=
  { seq := 0, ackValid := false, ack := 0, credits := 0, crcOk := true, headerOk := true, fec := [], payloadUe := false, packets := [] }
def unit0 : ImgUnit :=
  { logical := 21, profile := .s, pinned := none, start := 0, bundles := [], rows := [], rowsUsed := 0, isInput := false, isOutput := false,
    cadence := 4096, chans := [], guards := [], bounds := [], passes := [], free := [], owners := [], variant := none }
def seg0 : ImgSeg :=
  { id := 0, src := .port 21 0, dst := .data 2 0, path := [{ site := 21, out := 5 }], frames := [0], credits := [0], slackAt := [0],
    interval := 16, wait := 0, batch := 0 }
def rep0 : StaticReport :=
  { number := 1, id := 1, cadence := 4096, fill := 0, steady := 1, maxInFlight := 1, reproducible := false, units := [(.sCore, 1)], extent := []
    stages := [{ sites := [21], kind := .sCore, cls := 0, offset := 0, cadence := 4096, latency := 1, offsetA := 0, latencyA := 0, throughput := 1, pinned := [] }]
    perUnit := [{ unit := 21, rows := 0, istore := 0, free := [], owners := [], bounds := [] }], paths := [], links := [], channels := [], span := 0 }
def image0 : Image :=
  { stampedId := 1, report := rep0, claims := [], units := [unit0], segs := [], sched := [], dataQ := [], tokenQ := [], elements := []
    chanPeaks := [], channels := [], host := none, loam := [] }
def found0 : ExamFindings :=
  { complete := true, firstCode := 0, diesFailed := 0, regsFailed := 0, moduleFail := false, lanesFailed := 0, connFailed := 0,
    unitsFailed := [], unitsLow := [], pinsFailed := [], wiresFailed := [] }

/-- Each check refuses a term that only it refuses. -/
theorem test_ill_formed : ∀ i ∈ [Instr.add (isu 21 2) 0, .feed (isu 168 1) 0, .registerWrite 4 [0], .registerWrite 8 [],
    .registerWrite 8 (List.replicate 65 0), .data 0 { flit with packets := [{ pk with rows := [{ data := 0, poison := 0 }] }] },
    .doorbell 0 { flit with packets := [pk] } [(0, 0)], .doorbell 0 flit [], .doorbell 0 flit (List.replicate 14 (0, 0)),
    .idle 0 { flit with packets := [pk] }, .limiterSample 0 0 0 [1, 1], .rollCall [21, 21] [] [], .rollCall [] [1, 1] [],
    .dieLinkTraining 0 false false (List.replicate 9 0), .load { image0 with units := [unit0, unit0] },
    .load { image0 with segs := [seg0, seg0] }, .load { image0 with segs := [{ seg0 with id := 8192 }] },
    .load { image0 with units := [{ unit0 with bundles := [(1024, 0)] }] }], i.wf = false := by decide +kernel

theorem test_well_formed : ∀ i ∈ [Instr.add (isu 21 1) 0, .feed (isu 168 2) 0, .registerWrite 8 (List.replicate 64 0),
    .data 0 { flit with packets := [{ head := BitVec.ofNat 1024 (8 * 2 ^ 61), rows := List.replicate 2 { data := 0, poison := 0 } }] },
    .doorbell 0 flit (List.replicate 13 (0, 0)), .idle 0 flit, .limiterSample 0 0 0 [1, 2], .rollCall [21, 22] [1] [],
    .dieLinkTraining 0 false false (List.replicate 8 0), .load image0, .jmp (isu 168 1) 0, .vcvt (isu 661 7) 0], i.wf = true := by
  decide +kernel

/-- A queue of 8 rows, and the image whose one stream leads from core 21 to it. -/
def q8 : BitVec 32 := BitVec.ofNat 32 (2 ^ 31 + 8 * 2 ^ 18)
def seg1 : ImgSeg := { seg0 with dst := .data 25 0 }
def image1 : Image :=
  { image0 with
    segs := [seg1], sched := [(2768, 0xC000)], dataQ := [(25, 0, q8)]
    report := { rep0 with paths := [{ seg := 0, hops := 0, slacks := 1, setting := 1, cap := 8, mark := 4 }] } }
/-- The same without the slack stage that R76 asks for. -/
def noSlack : Image :=
  { image1 with
    segs := [{ seg1 with slackAt := [] }]
    report := { rep0 with paths := [{ seg := 0, hops := 0, slacks := 0, setting := 1, cap := 8, mark := 4 }] } }

/-! ## Integer, row and control slots -/

/-- ArithmeticAndLogicResults, ShiftCompareSelectResults, MultiplyHashAndCounterReads: bundles that issue, and their results on 5 and
-7 worked out from the table of R115 (the shift counts are -7 mod 64 = 57). -/
theorem witness_integer_slots : ∀ x ∈ ([(0x01, Instr.add, 1, 2 ^ 64 - 2), (0x02, .sub, 1, 12), (0x03, .and_, 1, 1), (0x04, .or_, 1, 2 ^ 64 - 3),
    (0x05, .xor_, 1, 2 ^ 64 - 4), (0x06, .shl, 1, 5 * 2 ^ 57), (0x07, .shr, 1, 0), (0x08, .sar, 1, 0), (0x09, .cmpeq, 1, 0), (0x0A, .cmplt, 1, 0),
    (0x0B, .cmpltu, 1, 1), (0x0C, .sel, 1, 2 ^ 64 - 7), (0x0D, .min_, 1, 2 ^ 64 - 7), (0x0E, .max_, 1, 5), (0x10, .mul, 3, 2 ^ 64 - 35),
    (0x11, .mulhu, 3, 4), (0x13, .movi, 1, 0), (0x15, .rdc, 1, 0)] : List (Nat × (Issue → BitVec 56 → Instr) × Nat × Nat)),
    Lone sState (isu 21 0) x.1 (BitVec.ofNat 56 abd).toNat
      ∧ gives sState (x.2.1 (isu 21 0) (BitVec.ofNat 56 abd)) (isu 21 0) x.2.2.1 (.gpr 3) x.2.2.2 0 = true := by
  unfold Lone Fresh; decide +kernel
/-- ORSH shifts the first source left by 24 and joins the immediate (R115); a poisoned source poisons the result (R167). -/
theorem test_orsh_poison : gives (withCore 21 { sCore with gpr := [(1, { v := 5, p := true })] }) (.orsh (isu 21 0) (BitVec.ofNat 56 (3 * 2 ^ 46 + 2 ^ 36 + 9)))
    (isu 21 0) 1 (.gpr 3) (5 * 2 ^ 24 + 9) 1 = true := by decide +kernel
theorem test_hash : Lone sState (isu 21 0) 0x12 (BitVec.ofNat 56 abd).toNat := by unfold Lone Fresh; decide +kernel

def pend0 : Pend := { due := 4, slot := 0, dest := .gpr 3, val := 9, pois := 0, mask := 0 }
def pend1 : Pend := { due := 4, slot := 1, dest := .gpr 3, val := 10, pois := 0, mask := 0 }
/-- ResultsBecomeReadableWhenDue: a result due now, one due later, and two of one cycle. -/
theorem witness_results_due :
    (∀ x ∈ [([pend0], 4, 9), ([pend0], 3, 0), (insertPend pend0 (insertPend pend1 []), 5, 10)],
      let s := withCore 21 { sCore with pend := x.1, cycle := x.2.1 }
      let c := getCore s 21
      canIssue s 21 = true ∧ c.forming = [] ∧ (∀ k, k < 4 → tget 0 c.istoreErrs (c.pc * 4 + k) < 2) ∧ c.pc + 1 < bundleCount c.profile
        ∧ tblWf pval0 c.gpr = true ∧ after_ (.nop 21) s (fun t => (rg (getCore t 21) 3).v.toNat == x.2.2) = true) := by decide +kernel

/-- NopIssuesEmptyBundle: in the store, and at its last address. -/
theorem witness_nop :
    (canIssue sState 21 = true ∧ (getCore sState 21).forming = [] ∧ Fresh (getCore sState 21) ∧ leaves sState (.nop 21) 21 (Sys2Proof.after (getCore sState 21)) = true)
    ∧ (let s := withCore 21 { sCore with plc := none, pc := 511, cycle := 7 }
       canIssue s 21 = true ∧ (getCore s 21).forming = [] ∧ Fresh (getCore s 21) ∧ (getCore s 21).fcode = 0
        ∧ after_ (.nop 21) s (fun t => (getCore t 21).run == .halted && (getCore t 21).fcode == 5
            && (getCore t 21).frec0 == BitVec.ofNat 64 (5 * 2 ^ 56 + 511 * 2 ^ 43 + 7)) = true)
    ∧ (getCore State.reset 21).run ≠ .running := by
  unfold Fresh; decide +kernel

/-- RowSlotResults: row 6 of the core is g1 + 1, window 2. -/
def rowState : State := scratchWrite sState 21 6 77 false
theorem witness_row_slots :
    MemoryOk rowState ∧ (∀ o ∈ [0x40, 0x41, 0x42], Lone rowState (isu 21 2) o (2 * 2 ^ 54 + 1 * 2 ^ 48 + 1 * 2 ^ 32))
      ∧ rowHasErrs rowState.scratch (scratchAddr 21 6 / 16) = false ∧ (rowsAt rowState 21 6 1 = [77])
      ∧ gives rowState (.ldrow (isu 21 2) (BitVec.ofNat 56 (2 * 2 ^ 54 + 1 * 2 ^ 48 + 1 * 2 ^ 32))) (isu 21 2) 6 (.window 2) 77 0 = true
      ∧ gives rowState (.strow (isu 21 2) (BitVec.ofNat 56 (2 * 2 ^ 54 + 1 * 2 ^ 48 + 1 * 2 ^ 32))) (isu 21 2) 3 (.row 6) 0 0 = true
      ∧ gives rowState (.clrw (isu 21 2) (BitVec.ofNat 56 (2 * 2 ^ 54))) (isu 21 2) 1 (.window 2) 0 0 = true := by
  unfold Lone Fresh MemoryOk; decide +kernel

/-- BranchesGoWhereTheySay, from address 0 with 5 in g1 and hint 1: BEQZ and BLTZ are not taken, BNEZ and BGEZ are; JAL links in g1. -/
theorem witness_branches :
    let w := 2 ^ 55 + 1 * 2 ^ 49 + 9 * 2 ^ 37
    let j := 2 ^ 55 + 9 * 2 ^ 37
    let c := getCore sState 21
    ∀ x ∈ ([(0x80, Instr.jmp, j, branched c 9 false false), (0x81, .beqz, w, branched c 1 true false), (0x82, .bnez, w, branched c 9 false false),
        (0x83, .bltz, w, branched c 1 true false), (0x84, .bgez, w, branched c 9 false false),
        (0x85, .jal, w, branched { c with pend := [resultOf c 3 1 (.gpr 1) 1 0 0] } 9 false false),
        (0x86, .jr, 2 ^ 49, branched c 5 true false)] : List (Nat × (Issue → BitVec 56 → Instr) × Nat × Core)),
      Lone sState (isu 21 3) x.1 (BitVec.ofNat 56 x.2.2.1).toNat
        ∧ leaves sState (x.2.1 (isu 21 3) (BitVec.ofNat 56 x.2.2.1)) 21 x.2.2.2 = true := by
  unfold Lone Fresh; decide +kernel

/-- SignatureCheckAndHalt: a signature that agrees, one that does not, and HALT at a core with a receive channel. -/
theorem witness_sigchk_halt :
    (∀ x ∈ [0x8E, 0x8F], Lone sState (isu 21 3) x 0) ∧ (getCore sState 21).sig = 0 ∧ bit sState.chk.enables.toNat 4 = true
      ∧ tblWf chan0 (getCore sState 21).chans = true
      ∧ leaves sState (.sigchk (isu 21 3) 0) 21 { Sys2Proof.after (getCore sState 21) with sig := 0 } = true
      ∧ after_ (.sigchk (isu 21 3) 1) sState (fun t => t.rcv.raised.any fun f => f.code == 0x23 && f.rec1 == 1) = true
      ∧ after_ (.halt (isu 21 3) 0) sState (fun t => (getCore t 21).run == .halted && (getCore t 21).pc == 1) = true := by
  unfold Lone Fresh; decide +kernel

/-- SignatureCheckAndHalt: an ADD whose sum loses bit 0, with the check off, and with it on, where bit 0 of the residue differs. -/
theorem witness_residue :
    let a := { isu 21 0 with upset := some { elem := 0, flips := 2, rounding := false } }
    let off := { sState with chk := { sState.chk with enables := sState.chk.enables &&& ~~~8#6 } }
    Lone sState (isu 21 0) 0x01 (BitVec.ofNat 56 abd).toNat ∧ Lone off (isu 21 0) 0x01 (BitVec.ofNat 56 abd).toNat
      ∧ bit off.chk.enables.toNat 3 = false ∧ bit sState.chk.enables.toNat 3 = true ∧ sState.chk.arb = []
      ∧ (5 + 2 ^ 64 - 7) % 2 ^ 64 % 32767 ≠ ((5 + 2 ^ 64 - 7) % 2 ^ 64 ^^^ 2) % 32767
      ∧ gives off (.add a (BitVec.ofNat 56 abd)) (isu 21 0) 1 (.gpr 3) (2 ^ 64 - 4) 0 = true
      ∧ after_ (.add a (BitVec.ofNat 56 abd)) sState (fun t => (t.rcv.raised.map fun f => (f.code, f.unit)) == [(0x22, 21)] && t.chk.arb.length == 1
            && (getCore t 21).pend.map (fun p => p.pois.toNat) == [1]) = true := by
  unfold Lone Fresh; decide +kernel

/-- SlotsGatherIntoOneBundle: ADD to g2 in slot 0, then SUB of g1 - g2 in slot 1, which reads the old g2 (R104). -/
theorem witness_two_slots :
    let v : BitVec 56 := BitVec.ofNat 56 (2 * 2 ^ 46 + 1 * 2 ^ 36 + 1 * 2 ^ 26)
    let w : BitVec 56 := BitVec.ofNat 56 abd
    let s := withCore 21 { sCore with forming := [slotOf (isu 21 0) 0x01 v.toNat] }
    canIssue sState 21 = true ∧ canIssue s 21 = true ∧ Fresh (getCore s 21)
      ∧ bundleFaults (getCore s 21) (getM s 21) [slotOf (isu 21 0) 0x01 v.toNat, slotOf (isu 21 1) 0x02 w.toNat] = []
      ∧ after_ (.sub (isu 21 1) w) s (fun t => (getCore t 21).pend.map (fun p => (p.dest, p.val.toNat)) == [(.gpr 2, 10), (.gpr 3, 12)]) = true := by
  unfold Fresh; decide +kernel

/-! ## Waits, sends, messages, DMA and SPUSH -/

def waitState : State := withCore 21 { sCore with counters := [(3, 10)], strict := true, arrived := [40, 41], readable := [], guards := [{ counter := 3, base := 40, count := 1 }] }
def waitW (target : Nat) : Nat := 3 * 2 ^ 50 + target * 2 ^ 11
/-- WAITS on slot word 0 masked with g1: equal to g0 (met), equal to g1 (not met). -/
def waitsW (v : Nat) : Nat := 1 * 2 ^ 42 + v * 2 ^ 36
/-- WaitsHoldOrPass: counter 10 meets targets up to 10 and not 11; a passing wait publishes the guarded row 40 alone. -/
theorem witness_waits :
    let legal := fun (s : State) (o w : Nat) => canIssue s 21 = true ∧ (getCore s 21).forming = [] ∧ Fresh (getCore s 21)
      ∧ slotClass (getCore s 21).profile 3 = 3 ∧ faultReserved (getCore s 21) o w = false ∧ faultOperand (getCore s 21) none o w = false
    Lone waitState (isu 21 3) 0x88 (BitVec.ofNat 56 (waitW 10)).toNat ∧ legal waitState 0x88 (waitW 11)
      ∧ Lone sState (isu 21 3) 0x89 (BitVec.ofNat 56 (waitsW 0)).toNat ∧ legal sState 0x89 (waitsW 1)
      ∧ after_ (.waitc (isu 21 3) (BitVec.ofNat 56 (waitW 10))) waitState (fun t => (getCore t 21).pc == 1 && (getCore t 21).readable == [40]
          && (getCore t 21).arrived == [41]) = true
      ∧ after_ (.waitc (isu 21 3) (BitVec.ofNat 56 (waitW 11))) waitState (fun t => (getCore t 21).pc == 0 && (getCore t 21).held.isSome
          && (getCore t 21).arrived == [40, 41]) = true
      ∧ leaves sState (.waits (isu 21 3) (BitVec.ofNat 56 (waitsW 0))) 21 (Sys2Proof.after (getCore sState 21)) = true
      ∧ after_ (.waits (isu 21 3) (BitVec.ofNat 56 (waitsW 1))) sState (fun t => (getCore t 21).held.isSome) = true := by
  unfold Lone Fresh; decide +kernel

def inRing0 : InRing := { plc := 0, seg := 5, base := 100, n := 8, counter := 3, next := 2, counts := [8, 9, 10, 11], prevTarget := some 9 }
def route0 : Route := { path := [], frames := [], back := [], slackAt := [], slacks := [], extra := 0 }
def ringSeg : Seg := { plc := 0, id := 5, src := .port 22 0, dst := .ring 21 0 100 8 3, cap := 8, credits := 0, owed := 1, buf := [], transit := [], beats := 0, route := route0, tight := false }
def relState : State := { withCore 21 { sCore with counters := [(3, 10)], inRings := [(0, inRing0)] } with segs := [ringSeg] }
/-- WaitcReleasesRingRows: the two rows counted up to the last target, 9, are released and owed. -/
theorem witness_release :
    Lone relState (isu 21 3) 0x88 (BitVec.ofNat 56 (waitW 10)).toNat ∧ (getCore relState 21).inRings = [(0, inRing0)]
      ∧ findSeg relState 0 5 = some ringSeg
      ∧ after_ (.waitc (isu 21 3) (BitVec.ofNat 56 (waitW 10))) relState (fun t =>
          (getCore t 21).inRings == [(0, { inRing0 with prevTarget := some 10, counts := [10, 11] })] && findSeg t 0 5 == some { ringSeg with owed := 3 }) = true := by
  unfold Lone Fresh; decide +kernel

def heldC (wait : Bool) (op : SlotOp) : Held := { ops := [op], isWait := wait, since := 0, tested := 0, due := none }
def heldState (wait : Bool) (op : SlotOp) (ctr : BitVec 32) (dma : List DmaIn) : State :=
  withCore 21 { sCore with counters := [(3, ctr)], held := some (heldC wait op), dmaIn := dma }
def waitOp : SlotOp := { slot := 3, opc := 0x88, w := waitW 11 }
def loadOp : SlotOp := { slot := 2, opc := 0x40, w := 2 * 2 ^ 54 + 1 * 2 ^ 48 + 1 * 2 ^ 32 }
def dmaRow6 : DmaIn := { op := 1, src := 3042, base := 6, n := 1, left := 1, counter := 0, due := none }
/-- Whether a held operation is free to issue at cycle 5. -/
def freed (s : State) (op : SlotOp) : Bool :=
  let s' := setCore s 21 { getCore s 21 with cycle := 5 }
  let c := getCore s' 21
  !waiting s' 21 c [op] && !stalls s' 21 c op
    && bundleFaults (if op.opc = 0x88 then strictSnapshot c (bits op.w 55 50) else c) (getM s 21) [op] == []
/-- A state whose core has found at cycle 5 that its held bundle still waits. -/
def stillAt5 (s : State) (h : Held) : State := setCore s 21 { getCore s 21 with cycle := 5, held := some { h with tested := 5 } }
/-- HeldBundlesIssueWhenFreed: a wait whose counter has come to 11 and one whose has not, and a row load whose row no DMA brings any more and one whose row is still to come. -/
theorem witness_held :
    let s1 := heldState true waitOp 11 []
    let s2 := heldState true waitOp 10 []
    let s3 := heldState false loadOp 0 []
    let s4 := heldState false loadOp 0 [dmaRow6]
    let gone := fun (t : State) => (getCore t 21).pc == 1 && (getCore t 21).cycle == 6 && (getCore t 21).held.isNone
    (freed s1 waitOp && after_ (.waitConditionMet 21 5) s1 gone && same (.stallRelease 21 5) s1
      && (waiting (setCore s2 21 { getCore s2 21 with cycle := 5 }) 21 { getCore s2 21 with cycle := 5 } [waitOp])
      && after_ (.waitConditionMet 21 5) s2 (fun t => t == stillAt5 s2 (heldC true waitOp)) && freed s3 loadOp && after_ (.stallRelease 21 5) s3 gone && same (.waitConditionMet 21 5) s3
      && (stalls (setCore s4 21 { getCore s4 21 with cycle := 5 }) 21 { getCore s4 21 with cycle := 5 } loadOp)
      && after_ (.stallRelease 21 5) s4 (fun t => t == stillAt5 s4 (heldC false loadOp))) = true := by decide +kernel

/-- A core at site 21 whose g2 holds a descriptor, in a module whose epoch is written. -/
def sendState (desc : Nat) : State :=
  let s := withCore 21 { sCore with gpr := [(1, val 7), (2, val (BitVec.ofNat 64 desc))] }
  let s := { s with fab := { s.fab with tab0 := { tables0 with written := true } } }
  scratchWrite (scratchWrite s 21 8 11 false) 21 9 12 false
def sendDesc (dst : Nat) : Nat := dst * 2 ^ 50 + 8 * 2 ^ 34 + 2 * 2 ^ 28
/-- SendsLaunchTheirPackets: three rows to the core of site 23, and to the port tile of site 3042. -/
theorem witness_send : ∀ x ∈ [(23, 1), (19 * 160 + 2, 6)],
    let s := sendState (sendDesc x.1)
    let w : BitVec 56 := BitVec.ofNat 56 (2 * 2 ^ 50 + 2 ^ 49 + 4 * 2 ^ 45)
    Lone s (isu 21 3) 0x8A w.toNat ∧ descPoisoned (getCore s 21) 0x8A w.toNat = false ∧ Sendable s 21 x.1 3 x.1 ∧ RowsClean s 21 8 3
      ∧ after_ (.send (isu 21 3) w) s (fun t => (t.fab.flight.map fun (k : Packet) => (k.dst.toNat, k.ptype, k.rows.map (·.data.toNat), k.last))
            == [(x.1, x.2, [11, 12], false), (x.1, x.2, [0], true)]
          && tget 0 (getCore t 21).slots 4 == BitVec.ofNat 64 (2 ^ 62) && (getCore t 21).pc == 1) = true := by
  unfold Lone Fresh Sendable RowsClean; decide +kernel

def chanSend : Chan := { chan0 with entry := BitVec.ofNat 64 (1 * 2 ^ 62 + 23 * 2 ^ 48 + 4 * 2 ^ 43 + 3 * 2 ^ 15), nextSeq := 6 }
def chanRecv : Chan := { chan0 with entry := BitVec.ofNat 64 (2 * 2 ^ 62 + 23 * 2 ^ 48 + 4 * 2 ^ 43 + 100 * 2 ^ 28 + 8 * 2 ^ 15), ro := 6, wo := 1, used := 3 }
def msgState (desc : Nat) : State :=
  modCore (sendState desc) 21 fun c => { c with chans := [(2, chanSend), (3, chanRecv)] }
def msgDesc (op ch n : Nat) : Nat := op * 2 ^ 61 + ch * 2 ^ 56 + 8 * 2 ^ 40 + (n - 1) * 2 ^ 34
/-- MessagesSendReleaseCloseResume: as many rows as the peer's ring has; a release past the ring's end; a close; a resume. -/
theorem witness_msg :
    let w : BitVec 56 := BitVec.ofNat 56 (2 * 2 ^ 50)
    let rel := 1 * 2 ^ 61 + 3 * 2 ^ 56 + 3 * 2 ^ 27
    let s1 := msgState (msgDesc 0 2 3)
    let s2 := msgState rel
    let s3 := msgState (2 * 2 ^ 61 + 3 * 2 ^ 56)
    let s4 := msgState (3 * 2 ^ 61 + 2 * 2 ^ 56)
    (∀ s ∈ [s1, s2, s3, s4], Lone s (isu 21 3) 0x8B w.toNat ∧ descPoisoned (getCore s 21) 0x8B w.toNat = false)
      ∧ 3 ≤ chRows chanSend ∧ Sendable s1 21 (chPeer chanSend) 3 23 ∧ RowsClean s1 21 8 3
      ∧ after_ (.msgSend (isu 21 3) w) s1 (fun t => (t.fab.flight.map fun (k : Packet) => (k.dst.toNat, k.ptype, k.rows.map (·.data.toNat)))
            == [(23, 2, [11, 12]), (23, 2, [0])] && (getChan (getCore t 21) 2).nextSeq == 7 && (getChan (getCore t 21) 2).inFlight == 1) = true
      ∧ leaves s2 (.msgRelease (isu 21 3) w) 21 (Sys2Proof.after (setChan (getCore s2 21) 3 { chanRecv with ro := 1, used := 0 })) = true
      ∧ leaves s3 (.msgClose (isu 21 3) w) 21 (Sys2Proof.after (setChan (getCore s3 21) 3 { chanRecv with recvState := .closed })) = true
      ∧ leaves s4 (.msgResume (isu 21 3) w) 21 (Sys2Proof.after (setChan (getCore s4 21) 2 chanSend)) = true := by
  unfold Lone Fresh Sendable RowsClean; decide +kernel

def dmaDesc (out : Nat) : Nat := 3042 * 2 ^ 50 + out * 2 ^ 48 + 8 * 2 ^ 32 + 2 * 2 ^ 20 + 7 * 2 ^ 14
def pushSeg : Seg := { plc := 0, id := 5, src := .port 21 2, dst := .data 0 0, cap := 4, credits := 2, owed := 0, buf := [], transit := [], beats := 0, route := route0, tight := false }
def pushState : State := { modCore (sendState 0) 21 fun c => { c with outPorts := [(2, (0, 5))] } with segs := [pushSeg] }
/-- DmaAndStreamPushes: a READ and a DMA_WRITE of three rows at a port tile, and an SPUSH of two rows on the last two credits. -/
theorem witness_dma_spush :
    let w : BitVec 56 := BitVec.ofNat 56 (2 * 2 ^ 50)
    let x : BitVec 56 := BitVec.ofNat 56 (2 * 2 ^ 53 + 1 * 2 ^ 47 + 1 * 2 ^ 31 + 1 * 2 ^ 26)
    let s1 := sendState (dmaDesc 0)
    let s2 := sendState (dmaDesc 1)
    (∀ s ∈ [s1, s2], Lone s (isu 21 3) 0x8C w.toNat ∧ descPoisoned (getCore s 21) 0x8C w.toNat = false ∧ Sendable s 21 3042 3 3042 ∧ RowsClean s 21 8 3)
      ∧ Lone pushState (isu 21 3) 0x8D x.toNat ∧ (getEp pushState 21).outq = [] ∧ RowsClean pushState 21 8 2
      ∧ after_ (.dmaHbmToRows (isu 21 3) w) s1 (fun t => (t.fab.flight.map fun (k : Packet) => (k.dst.toNat, k.ptype, k.rows.length, k.last)) == [(3042, 3, 0, true)]
            && (getCore t 21).dmaIn == [{ op := 0, src := 3042, base := 8, n := 3, counter := 7, left := 3, due := none }]) = true
      ∧ after_ (.dmaRowsToHbm (isu 21 3) w) s2 (fun t => (t.fab.flight.map fun (k : Packet) => (k.dst.toNat, k.ptype, k.rows.map (·.data.toNat)))
            == [(3042, 4, [11, 12]), (3042, 4, [0])]) = true
      ∧ after_ (.spush (isu 21 3) x) pushState (fun t => t.segs.map (fun g => (g.credits, g.buf.map (·.data.toNat))) == [(0, [11, 12])]
            && (getCore t 21).pc == 1) = true := by
  unfold Lone Fresh Sendable RowsClean; decide +kernel

/-! ## Vector slots -/

def vec (l : List Nat) (wd : Nat) : VReg := { v := BitVec.ofNat 2048 (l.foldr (fun x a => x + a * 2 ^ wd) 0), p := 0 }
/-- A V-core: v1 and v2 hold the given elements first, g1 is 6, g2 is 0x80000005. -/
def vState (a b : List Nat) (wd : Nat) : State :=
  withCore 641 { core0 with profile := .v, plc := some 0, gpr := [(1, val 6), (2, val 0x80000005)], vec := [(1, vec a wd), (2, vec b wd)] }
def valuW (c t : Nat) : BitVec 56 := BitVec.ofNat 56 (3 * 2 ^ 51 + 1 * 2 ^ 46 + 2 * 2 ^ 41 + c * 2 ^ 36 + t * 2 ^ 33)
/-- The first two elements of the newest result on its way at a core, and the cycles until it is readable. -/
def newest (t : State) (u wd : Nat) : Option (Nat × Nat × Nat) :=
  (getCore t u).pend.getLast?.map fun p => (p.due - (getCore t u).cycle + 1, elemAt p.val.toNat wd 0, elemAt p.val.toNat wd 1)

/-- VectorIntegerElements: INT8 elements -5 and 127 with 3 and 1 (R145), latency 2. -/
theorem witness_vector_int :
    let s := vState [251, 127] [3, 1] 8
    ∀ x ∈ ([(.vadd, 0xC0, 254, 128), (.vsub, 0xC1, 248, 126), (.vmul, 0xC2, 241, 127), (.vmax, 0xC4, 3, 127), (.vmin, 0xC5, 251, 1),
      (.vand, 0xC6, 3, 1), (.vor, 0xC7, 251, 127), (.vxor, 0xC8, 248, 126), (.vcmplt, 0xC9, 255, 0), (.vcmpeq, 0xCA, 0, 0),
      (.vshl, 0xCC, 216, 254), (.vshr, 0xCD, 255, 63)] : List ((Issue → BitVec 56 → Instr) × Nat × Nat × Nat)),
      Lone s (isu 641 4) x.2.1 (valuW 0 5).toNat
        ∧ after_ (x.1 (isu 641 4) (valuW 0 5)) s (fun t => newest t 641 8 == some (2, x.2.2.1, x.2.2.2)) = true := by
  unfold Lone Fresh; decide +kernel
theorem witness_vector_three : ∀ x ∈ ([(.vfma, 0xC3, 254, 128), (.vsel, 0xCB, 3, 1)] : List ((Issue → BitVec 56 → Instr) × Nat × Nat × Nat)),
    Lone (vState [1, 127] [3, 1] 8) (isu 641 4) x.2.1 (valuW 2 5).toNat
      ∧ Lone (vState [1, 127] [3, 1] 8) (isu 641 4) x.2.1 (valuW 2 0).toNat := by unfold Lone Fresh; decide +kernel

/-- VectorFloatElements: FP32 1.5 and 0 with 2.0 and -0 (R145, R146). -/
theorem witness_vector_float :
    let s := vState [0x3FC00000, 0] [0x40000000, 0x80000000] 32
    ∀ x ∈ ([(.vadd, 0xC0, 4, 0x40600000, 0), (.vsub, 0xC1, 4, 0xBF000000, 0), (.vmul, 0xC2, 4, 0x40400000, 0x80000000),
      (.vmax, 0xC4, 2, 0x40000000, 0), (.vmin, 0xC5, 2, 0x3FC00000, 0x80000000), (.vxor, 0xC8, 2, 0x7FC00000, 0x80000000)]
        : List ((Issue → BitVec 56 → Instr) × Nat × Nat × Nat × Nat)),
      Lone s (isu 641 4) x.2.1 (valuW 0 0).toNat
        ∧ after_ (x.1 (isu 641 4) (valuW 0 0)) s (fun t => newest t 641 32 == some x.2.2) = true := by
  unfold Lone Fresh; decide +kernel

/-- VectorRowMoves: the row at g1 + 1 and the pair of v2 and v3; an element of v1. -/
theorem witness_vector_moves :
    let s := scratchWrite (vState [9, 8] [7] 32) 641 7 77 false
    let mv : BitVec 56 := BitVec.ofNat 56 (1 * 2 ^ 52 + 1 * 2 ^ 46 + 1 * 2 ^ 30)
    let bc : BitVec 56 := BitVec.ofNat 56 (3 * 2 ^ 51 + 2 * 2 ^ 45 + 6 * 2 ^ 42)
    let ex : BitVec 56 := BitVec.ofNat 56 (4 * 2 ^ 50 + 1 * 2 ^ 45 + 1 * 2 ^ 37 + 6 * 2 ^ 34)
    MemoryOk s ∧ Lone s (isu 641 5) 0xD0 mv.toNat ∧ Lone s (isu 641 5) 0xD1 mv.toNat ∧ Lone s (isu 641 5) 0xD2 bc.toNat
      ∧ Lone s (isu 641 5) 0xD3 ex.toNat ∧ rowHasErrs s.scratch (scratchAddr 641 7 / 16) = false
      ∧ gives s (.vld (isu 641 5) mv) (isu 641 5) 7 (.pair 1) 77 0 = true ∧ gives s (.vst (isu 641 5) mv) (isu 641 5) 3 (.row 7) 7 0 = true
      ∧ after_ (.vbc (isu 641 5) bc) s (fun t => newest t 641 32 == some (2, 0x80000005, 0x80000005)) = true
      ∧ gives s (.vext (isu 641 5) ex) (isu 641 5) 2 (.gpr 4) 8 0 = true := by
  unfold Lone Fresh MemoryOk; decide +kernel

def redW (t : Nat) : BitVec 56 := BitVec.ofNat 56 (2 ^ 55 + 4 * 2 ^ 49 + 1 * 2 ^ 44 + t * 2 ^ 41)
/-- ReductionsOfARegister: INT32 sums and extremes of -1 and 5 among zeros, and an FP32 sum of 1.5 and 2. -/
theorem witness_reductions :
    let s := vState [0xFFFFFFFF, 5] [] 32
    let f := vState [0x3FC00000, 0x40000000] [] 32
    (∀ o ∈ [0xE0, 0xE1, 0xE2], Lone s (isu 641 6) o (redW 6).toNat ∧ Lone f (isu 641 6) o (redW 0).toNat)
      ∧ gives s (.vrsum (isu 641 6) (redW 6)) (isu 641 6) 5 (.gpr 4) 4 0 = true
      ∧ gives s (.vrmax (isu 641 6) (redW 6)) (isu 641 6) 5 (.gpr 4) 5 0 = true
      ∧ gives s (.vrmin (isu 641 6) (redW 6)) (isu 641 6) 5 (.gpr 4) 0xFFFFFFFF 0 = true
      ∧ after_ (.vrsum (isu 641 6) (redW 0)) f (fun t => newest t 641 32 == some (7, 0x40600000, 0)) = true := by
  unfold Lone Fresh; decide +kernel

def cvtW (tf tt : Nat) : BitVec 56 := BitVec.ofNat 56 (3 * 2 ^ 51 + 1 * 2 ^ 46 + 2 * 2 ^ 41 + tf * 2 ^ 38 + tt * 2 ^ 35)
/-- ConversionsAndFunctions: FP32 to INT32, to BF16 and to FP8 (four to one), BF16 to FP32, and the functions on 1.0, where VEXP2 gives
2.0 within 2 units and VLOG2 zero within 2. -/
theorem witness_conversions :
    let s := vState [0x40200000, 0xC0600000] [0x3F800000] 32
    (∀ x ∈ [(0, 6), (0, 1), (1, 0), (0, 3)], Lone s (isu 641 7) 0xF0 (cvtW x.1 x.2).toNat)
      ∧ (∀ o ∈ [0xF1, 0xF2, 0xF3, 0xF4], Lone s (isu 641 7) o (BitVec.ofNat 56 (3 * 2 ^ 51 + 1 * 2 ^ 46)).toNat)
      ∧ after_ (.vcvt (isu 641 7) (cvtW 0 6)) s (fun t => newest t 641 32 == some (3, 2, 0xFFFFFFFC)) = true
      ∧ after_ (.vcvt (isu 641 7) (cvtW 0 1)) s (fun t => newest t 641 16 == some (3, 0x4020, 0xC060)) = true
      ∧ after_ (.vcvt (isu 641 7) (cvtW 1 0)) s (fun t => newest t 641 32 == some (3, 0, 0x40200000)) = true := by
  unfold Lone Fresh; decide +kernel

/-! ## Matrix slots and the units of an M-core -/

def mState (m : MCore) : State := setM (withCore 1284 { core0 with profile := .m, plc := some 0 }) 1284 m
def feedW : Nat := 2 * 2 ^ 84 + 40 * 2 ^ 68 + 3 * 2 ^ 52
def passW : Nat := 2 ^ 55 + 510 * 2 ^ 46 + 3 * 2 ^ 30
def ldwW : Nat := 3 * 2 ^ 52 + 8 * 2 ^ 36
def mvmW : Nat := 2 * 2 ^ 84 + 8 * 2 ^ 68 + 9 * 2 ^ 52 + 1 * 2 ^ 29 + 5 * 2 ^ 23
def drainW : Nat := 2 ^ 54 + 7 * 2 ^ 45 + 1 * 2 ^ 36 + 2 * 2 ^ 32 + 30 * 2 ^ 15
def chkcsW : Nat := 9 * 2 ^ 40 + 1 * 2 ^ 32
def mc (opc w : Nat) : MCmd := { opc := opc, w := w, slot := 3, pc := 0, cyc := 0, done := 0 }
def gotM (t : State) : MCore := getM t 1284

/-- MatrixCommandsJoinTheirQueues: each command at a core whose unit is ready for it. -/
theorem witness_matrix_issue :
    let s := mState mcore0
    let mv := mState { mcore0 with owner := true }
    let op := mState { mcore0 with owner := true, mvOpen := some 1 }
    let fd := mState { mcore0 with feedQ := [mc 0x20 feedW] }
    tblWf mcore0 s.mcores = true ∧ tblWf mcore0 mv.mcores = true ∧ tblWf mcore0 op.mcores = true ∧ tblWf mcore0 fd.mcores = true
      ∧ (∀ x ∈ [(2, 0x20, feedW), (3, 0x28, ldwW), (3, 0x2A, passW), (3, 0x29, 0), (3, 0x2B, passW % 2 ^ 56 / 2 ^ 46 * 2 ^ 46), (5, 0x38, drainW), (6, 0x3C, 2 ^ 55)],
            Lone s (isu 1284 x.1) x.2.1 x.2.2) ∧ Lone fd (isu 1284 2) 0x21 0
      ∧ Lone mv (isu 1284 4) 0x30 mvmW ∧ Lone op (isu 1284 6) 0x3D chkcsW
      ∧ after_ (.feed (isu 1284 2) (BitVec.ofNat 88 feedW)) s (fun t => (gotM t).feedQ.map (fun c => (c.opc, c.w)) == [(0x20, feedW)]) = true
      ∧ after_ (.fstop (isu 1284 2) 0) fd (fun t => (gotM t).feedQ == []) = true
      ∧ after_ (.swap (isu 1284 3) 0) s (fun t => (gotM t).swapped) = true
      ∧ after_ (.drain (isu 1284 5) (BitVec.ofNat 56 drainW)) s (fun t => (getCore t 1284).drainOut == [30] && (gotM t).drainQ.length == 1) = true
      ∧ after_ (.mvm (isu 1284 4) (BitVec.ofNat 88 mvmW)) mv (fun t => (gotM t).mvQ.length == 1 && (gotM t).mvOpen == some 1) = true
      ∧ after_ (.chkcs (isu 1284 6) (BitVec.ofNat 56 chkcsW)) op (fun t => (gotM t).checkQ.length == 1 && (gotM t).mvOpen == none) = true := by
  unfold Lone Fresh; decide +kernel

/-- FeederAndWeightTileReads: three INT8 vectors from row 40, two of them in the first row group; an INT4 tile of 64 rows from row 8, four of them
read at once; a PASS before and after the last read of a tile. -/
theorem witness_feeder_and_tile :
    let f := scratchWrite (mState { mcore0 with feedQ := [mc 0x20 feedW] }) 1284 40 (5 + 6 * 2 ^ 2048) false
    let l := scratchWrite (mState { mcore0 with arrayQ := [mc 0x28 ldwW], busyTill := 0 }) 1284 9 77 false
    let w := fun (n : Nat) => mState { mcore0 with
      ldw := some (mc 0x28 ldwW), swapped := true, arrayQ := [mc 0x2A passW], dones := [(0x28, n)], got := [{ opc := 0x28, part := 0, data := 77, pois := 0 }] }
    LoadedM f 1284 ∧ LoadedM l 1284 ∧ MemoryOk f ∧ fmtIsMx 2 = false ∧ rowHasErrs f.scratch (scratchAddr 1284 40 / 16) = false
      ∧ RowsClean l 1284 8 (tileRows 3)
      ∧ after_ (.feedRowGroupRead 1284) f (fun t => (gotM t).fifo.map (fun v => (v.fmt, v.data.toNat)) == [(2, 5), (2, 6)]
            && (gotM t).feedQ == [{ mc 0x20 feedW with done := 2 }]) = true
      ∧ (∀ s ∈ [f, l, w 0, w 1], QuietUnits (gotM s) ∨ (gotM s).ldw.isSome = true) ∧ LoadedM (w 1) 1284 ∧ unitNow l 1284 = 0
      ∧ after_ (.ldwBegin 1284) l (fun t => (gotM t).ldw == some (mc 0x28 ldwW) && (gotM t).got.map (·.data.toNat) == [0, 77, 0, 0]
            && (gotM t).reads.length == 60 && (gotM t).arrayQ == []) = true
      ∧ same (.passBegin 1284) (w 1) = true
      ∧ after_ (.passBegin 1284) (w 0) (fun t => (gotM t).ldw == none && (gotM t).active.fmt == some 3 && (gotM t).active.rows == [77]) = true
      ∧ same (.ldwBegin 1284) (mState { mcore0 with arrayQ := [mc 0x28 ldwW], busyTill := 1 }) = true := by
  unfold LoadedM QuietUnits MemoryOk RowsClean; decide +kernel

def vec8 : FVec := { fmt := 2, data := 5, scale := 0, pois := false }
def tile8 : Tile2 := { fmt := some 2, rows := [], scales := [], pois := false }
def live0 : TSlot := { tslot0 with live := true }
/-- PassesAndTallies: PASS 510 to 512 (slot 0) of bank 1 in overwrite. -/
theorem witness_passes :
    let p := mState { mcore0 with arrayQ := [mc 0x2A passW], swapped := true, shadow := tile8 }
    let e := { mcore0 with pass := some { mc 0x2A passW with done := 2 }, fifo := [vec8], active := tile8 }
    let x : Contrib := { cyc := 0, bank := true, slot := 0, vec := vec8, tile := tile8 }
    let a := mState { mcore0 with flight := [x] }
    let h := mState { mcore0 with checkQ := [mc 0x3C (2 ^ 55)] }
    (∀ s ∈ [p, mState e, a, h], LoadedM s 1284) ∧ ownerIdle (gotM h) 0 = true ∧ QuietUnits (gotM p) ∧ arraySlot (gotM (mState e)) true 0 = tslot0
      ∧ inFlightTo (gotM (mState e)) true 0 = false
      ∧ after_ (.passBegin 1284) p (fun t => (gotM t).pass == some (mc 0x2A passW) && (gotM t).active == tile8 && (gotM t).busyTill == 514) = true
      ∧ after_ (.passBegin 1284) (mState { mcore0 with arrayQ := [mc 0x2A 0], swapped := true, shadow := tile8 })
          (fun t => (gotM t).pass == none && (gotM t).arrayQ == [] && (gotM t).active == tile8) = true
      ∧ after_ (.vectorEntry 1284) (mState e) (fun t => (gotM t).fifo == [] && (gotM t).flight == [x] && (gotM t).pass == none) = true
      ∧ same (.vectorEntry 1284) (mState { e with bank1 := [(0, live0)] }) = true
      ∧ after_ (.addToTally ⟨1284, none⟩) a (fun t => (gotM t).flight == [] && (arraySlot (gotM t) true 0).live) = true
      ∧ after_ (.chkownHandover 1284) h (fun t => (gotM t).owner && (gotM t).checkQ == []) = true
      ∧ same (.chkownHandover 1284) (mState { mcore0 with checkQ := [{ mc 0x3C (2 ^ 55) with cyc := 1 }], flight := [x] }) = true := by
  unfold LoadedM QuietUnits; decide +kernel

def job0 : MvJob := { cmd := mc 0x30 mvmW, last := 0, drained := 0, xs := [], chk := some (mc 0x3D chkcsW), sums := [] }
def job1 (n : Nat) : MvJob := { job0 with drained := n, xs := [{ vec8 with data := 0 }], sums := [0] }
/-- The stream of a drain: port 3, a segment with these credits. -/
def drainSeg (m : MCore) (cr : Nat) : State :=
  let s := mState m
  { setCore s 1284 { getCore s 1284 with outPorts := [(3, (0, 5))] } with segs := [{ pushSeg with credits := cr }] }
def streamW : Nat := 2 ^ 54 + 7 * 2 ^ 45 + 1 * 2 ^ 36 + 0xD * 2 ^ 32 + 2 ^ 31 + 3 * 2 ^ 28
/-- MatrixVectorWorkAndDrains: an MVM of one slot, 5, before its vector has come, and its check early, agreeing, and failing by one unit; a drain of
two slots from array slot 7 of bank 1 to rows and, in FP32, to a stream of port 3 with two credits and with none. -/
theorem witness_mv_and_drains :
    let v := mState { mcore0 with mvQ := [mc 0x30 mvmW], owner := true }
    let w := mState { mcore0 with mvQ := [mc 0x30 mvmW], mvSlots := [(5, live0)] }
    let j := fun (l : List MvJob) (x : TSlot) => mState { mcore0 with mvJobs := l, mvSlots := [(5, x)] }
    let bad : TSlot := { live0 with lanes := [(0, { tally0 with q := 1 })] }
    let d := mState { mcore0 with drainQ := [mc 0x38 drainW], bank1 := [(7, live0)] }
    let e := drainSeg { mcore0 with drainQ := [mc 0x38 streamW], bank1 := [(7, live0)] }
    (∀ s ∈ [v, w, j [job0] live0, j [job1 0] bad, d, e 2, e 0], LoadedM s 1284) ∧ mvmSlots mvmW = [5] ∧ arrayWaits (gotM d) (mc 0x38 drainW) true 7 = false
      ∧ (∀ s ∈ [v, w, j [job1 0] live0, j [job1 1] live0, d, e 2], QuietUnits (gotM s)) ∧ arrayWaits (gotM v) (mc 0x38 drainW) true 7 = false
      ∧ (gotM (e 2)).sent = 0 ∧ drainHalves 0xD = 4 ∧ bit State.reset.chk.enables.toNat 1 = true
      ∧ (let c := mc 0x38 drainW
         let l : MCore := { mcore0 with drainQ := [c], flight := [{ cyc := 0, bank := true, slot := 7, vec := vec8, tile := tile8 }] }
         arrayWaits l c true 7 = true ∧ same (.drainVector 1284) (mState l) = true)
      ∧ after_ (.mvmBegin 1284) v (fun t => (gotM t).mvQ == [] && (gotM t).mvJobs.map (·.cmd) == [mc 0x30 mvmW]) = true
      ∧ same (.mvmBegin 1284) w = true
      ∧ after_ (.chkcsTest 1284) (j [job0] tslot0) (fun t => (tget tslot0 (gotM t).mvSlots 5).live) = true
      ∧ same (.chkcsTest 1284) (j [job1 1] live0) = true
      ∧ after_ (.chkcsTest 1284) (j [job1 0] live0) (fun t => (gotM t).mvJobs == [] && (gotM t).mvBad == []) = true
      ∧ after_ (.chkcsTest 1284) (j [job1 0] bad) (fun t => (gotM t).mvJobs == [] && (gotM t).mvBad == [(5, 1)] && (tget tslot0 (gotM t).mvSlots 5).pois) = true
      ∧ after_ (.drainVector 1284) d (fun t => arraySlot (gotM t) true 7 == tslot0 && (gotM t).drainQ == [{ mc 0x38 drainW with done := 1 }]) = true
      ∧ after_ (.drainVector 1284) (e 2) (fun t => arraySlot (gotM t) true 7 == tslot0 && (gotM t).drainQ == [{ mc 0x38 streamW with done := 1 }]
            && t.segs.map (fun g => (g.credits, g.buf.length)) == [(0, 2)]) = true
      ∧ same (.drainVector 1284) (e 0) = true := by
  unfold LoadedM QuietUnits; decide +kernel

/-- FaultingBundlesDoNotIssue: an undefined opcode 0x7F in slot 0, with no placement and in a running one. -/
theorem witness_program_fault :
    let c := { core0 with profile := .s, istore := [(0, BitVec.ofNat 512 (0x7F * 2 ^ 248))] }
    let s := withCore 21 c
    let r := setPlc (withCore 21 { c with plc := some 0 }) 0 { plc0 with state := .running }
    canIssue s 21 = true ∧ bundleFaults (getCore s 21) (getM s 21) (decodeBundle .s (tget 0 c.istore 0).toNat) ≠ []
      ∧ bundleFaults (getCore sState 21) (getM sState 21) (decodeBundle .s 0) = [] ∧ same (.programFault 21) sState = true
      ∧ after_ (.programFault 21) s (fun t => (getCore t 21).run == .halted && (getCore t 21).fcode == 1 && (getCore t 21).frec0 == BitVec.ofNat 64 (2 ^ 56)) = true
      ∧ after_ (.programFault 21) r (fun t => (getPlc t 0).state == .stopped) = true := by decide +kernel

/-- ScrubbersReadAndCorrect: the last row, clean; row 3 with one symbol in error; a tile; refresh. -/
theorem witness_scrubbers :
    let s := withCore 21 { core0 with scrub := 127 }
    let e := { withCore 21 { core0 with scrub := 3 } with scratch := { store0 with errs := [((21 * 2 ^ 24 + 3 * 512) / 16 + 2, 1)] } }
    MemoryOk s ∧ tblWf core0 s.cores = true ∧ rowHasErrs e.scratch (scratchAddr 21 3 / 16) = true
      ∧ after_ (.scrub 21 false) s (fun t => (getCore t 21).scrub == 0 && t.scratch == s.scratch) = true
      ∧ after_ (.scrub 21 false) e (fun t => (getCore t 21).scrub == 4 && t.scratch == store0) = true
      ∧ after_ (.scrub 21 true) e (fun t => rowHasErrs t.scratch (scratchAddr 21 3 / 16)) = true
      ∧ same (.scrub 21 false) { s with cores := [(21, { core0 with run := .running, scrubAt := some 0 })] } = true ∧ same (.scrub 21 false) State.reset = true
      ∧ after_ (.patrolScrub 3 false) on (fun t => (getTile t 3).scrub == 1) = true
      ∧ after_ (.refresh 3 true) on (fun t => tget 0 (getTile t 3).bank 1 == 1) = true
      ∧ same (.refresh 3 true) { on with pwr := { power0 with selfRef := true } } = true := by
  unfold MemoryOk; decide +kernel

/-! ## Streams, placements, loam -/

def srow (n : Nat) : SRow := { data := BitVec.ofNat 4096 n, poison := 0, stamp := 0, lag := 0 }
def segTo (dst : SegDst) (rows : List SRow) : Seg := { ringSeg with dst := dst, transit := rows }
def landRing : InRing := { inRing0 with next := 7, counts := [10] }
def landState : State :=
  { withCore 21 { sCore with counters := [(3, 10)], inRings := [(0, landRing)] } with segs := [segTo (.ring 21 0 100 8 3) [srow 9, srow 8]] }
def dq0 : DataQ := { desc := 0, plc := 0, seg := 5, rows := [srow 1] }
def tq0 : TokenQ := { desc := 0, plc := 0, seg := 6, rows := [] }
def swState (dst : SegDst) (r : SRow) : State :=
  setPlc { on with segs := [segTo dst [r]], switches := [(2, { switch0 with dq := [(4, dq0)], tq := [(1, tq0)] })] } 0 { plc0 with state := .running }
def creditE : BitVec 32 := BitVec.ofNat 32 (2 ^ 31 + 5 * 2 ^ 15 + 3)
/-- StreamRowsAndCreditsArrive: the last row of a ring, a data queue, a token row of two tokens and one of none, and credit beats for more
than is owed. -/
theorem witness_stream_rows :
    let q := swState (.data 2 4) (srow 9)
    let t := swState (.token 2 1) (srow (2 + 7 * 2 ^ 16 + 8 * 2 ^ 32))
    let z := swState (.token 2 1) (srow 0)
    findSeg landState 0 5 = some (segTo (.ring 21 0 100 8 3) [srow 9, srow 8]) ∧ marking landState 0 = false ∧ MemoryOk landState
      ∧ (getCore landState 21).pend = [] ∧ tblWf core0 landState.cores = true ∧ tblWf 0 (getCore landState 21).counters = true
      ∧ marking q 0 = false ∧ tokensOf (srow (2 + 7 * 2 ^ 16 + 8 * 2 ^ 32)).data = some [7, 8]
      ∧ after_ (.streamRowWrite 0 5 []) landState (fun t => memRead t.scratch.cells (scratchAddr 21 107) 512 == 9
            && rcnt (getCore t 21) 3 == 11 && (getCore t 21).inRings == [(0, { landRing with next := 0, counts := [10, 11] })]
            && t.segs.map (·.transit) == [[srow 8]]) = true
      ∧ after_ (.streamRowWrite 0 5 []) q (fun t => (tfind (getSw t 2).dq 4).map (·.rows) == some [srow 1, srow 9]) = true
      ∧ after_ (.tokenRowWrite 0 5 []) t (fun t => (tfind (getSw t 2).tq 1).map (·.rows) == some [{ stamp := 0, tokens := [7, 8], poison := false, lag := 0 }]) = true
      ∧ after_ (.tokenRowWrite 0 5 []) z (fun t => (getPlc t 0).state == .stopped) = true
      ∧ after_ (.creditBeat ⟨0, 5⟩ ⟨creditE.setWidth 1024, []⟩) relState (fun t => t.segs == [{ ringSeg with credits := 1, owed := 0 }]) = true
      ∧ same (.creditBeat ⟨0, 5⟩ ⟨5 * 2 ^ 15, []⟩) relState = true := by
  unfold MemoryOk; decide +kernel

theorem decodeCws_pois (st : Store) (cw raw : Nat) : ∀ (n k : Nat) (acc : RowRead), acc.pois ≤ (decodeCws st cw raw k acc n).pois
  | 0, _, _ => Nat.le_refl _
  | n + 1, k, acc => by 
      unfold decodeCws; refine Nat.le_trans ?_ (decodeCws_pois st cw raw n (k + 1) _); exact Nat.le_add_right _ _
theorem decodeCws_first (st : Store) (cw raw n : Nat) (acc : RowRead)
    (h : (decodeCw (BitVec.ofNat 128 (raw >>> (128 * 0))) (setHas st.poison (cw + 0)) (tget 0 st.errs (cw + 0)) acc.free).pois = true) :
    0 < (decodeCws st cw raw 0 acc (n + 1)).pois := by
  unfold decodeCws
  exact Nat.lt_of_lt_of_le (by simp only [h]; exact Nat.lt_of_lt_of_le (by decide) (Nat.le_add_left _ _)) (decodeCws_pois st cw raw n 1 _)
/-- Two symbols in error are always found (R913). -/
theorem decodeCw_two (d : BitVec 128) (m : Bool) (f : Nat) : (decodeCw d m 2 f).pois = true := by
  have h : (Config.swcOutcome 2 f).val % 2 = 0 ∨ (Config.swcOutcome 2 f).val % 2 = 1 := by omega
  rcases h with h | h <;> simp [decodeCw, h]
/-- StreamRowsAndCreditsArrive: a credit beat whose codeword 0 has two symbols in error. -/
theorem witness_credit_beat_damaged : relState.clk.gated = false ∧ findSeg relState 0 5 = some ringSeg ∧ (decodeRow 0 0 [(0, 2)] relState.free).pois ≠ 0 :=
  ⟨by decide +kernel, by decide +kernel, Nat.ne_of_gt (decodeCws_first _ _ _ 31 _ (decodeCw_two _ _ _))⟩

def outS (id cr : Nat) : Seg := { ringSeg with id := id, credits := cr }
def elState (kind ways lap : Nat) (cr : Nat) : State :=
  { on with
    segs := [outS 5 0, outS 7 cr, outS 8 1]
    switches := [(2, { dq := [(4, dq0), (5, { dq0 with seg := 8 })], tq := [(1, { tq0 with rows := [{ stamp := 0, tokens := [BitVec.ofNat 16 (3 * 2 ^ 8 + 1)], poison := false, lag := 0 }] })],
                       el := [(6, { desc := BitVec.ofNat 64 (kind * 2 ^ 60 + (ways - 1) * 2 ^ 58 + 0x54 * 2 ^ 40 + 0xA9 * 2 ^ 24 + 1 * 2 ^ 21), plc := 0, lap := BitVec.ofNat 8 lap })],
                       out := [(9, (0, 7)), (10, (0, 8))] })] }
/-- ElementsMoveRows: two ways each, from queues 4 and 5 to output slots 9 and 10; the token selects output 1 with lap tag 3. -/
theorem witness_elements :
    let f := elState 1 2 0 1
    let j := elState 2 2 0 2
    let w := elState 3 2 3 1
    tblWf switch0 f.switches = true ∧ ((upFrom 0 2).map (elOut (elState 1 2 0 1 |> fun s => ((tfind (getSw s 2).el 6).map (·.desc.toNat)).getD 0))) = [9, 10]
      ∧ (∀ o ∈ [9, 10], 0 < outCredits f 2 o)
      ∧ after_ (.forkFire 2 6) f (fun t => t.segs.map (fun g => (g.id, g.credits, g.transit)) == [(5, 0, []), (7, 0, [srow 1]), (8, 0, [srow 1])]
            && (tfind (getSw t 2).dq 4).map (·.rows) == some []) = true
      ∧ same (.forkFire 2 6) (elState 1 2 0 0) = true
      ∧ (∀ i, i < 2 → headRow (getSw j 2) (4 + i) = [srow 1, srow 1][i]?)
      ∧ after_ (.joinFire 2 6) j (fun t => t.segs.map (fun g => (g.id, g.credits, g.transit)) == [(5, 0, []), (7, 0, [srow 1, srow 1]), (8, 1, [])]) = true
      ∧ after_ (.fireSteered 2 6) w (fun t => t.segs.map (fun g => (g.id, g.credits, g.transit)) == [(5, 0, []), (7, 1, []), (8, 0, [srow 1])]
            && (tfind (getSw t 2).el 6).map (·.lap) == some 4) = true
      ∧ after_ (.fireSteered 2 6) (elState 3 2 4 1) (fun t => t.rcv.raised.map (·.code) == [0x30] && t.segs == w.segs) = true
      ∧ same (.fireSteered 2 6) { w with segs := [outS 5 0, outS 7 1, outS 8 0] } = true := by decide +kernel

def run0 : Placement := { plc0 with state := .running, img := some image0 }
/-- NoProgressStartsARecovery: at 65,536, first, again within 10 ms, and while it drains, and at 65,535. -/
theorem witness_no_progress :
    let s := fun (n : Nat) (r : Option Tick) => { setPlc sState 0 { run0 with watchdog := n, resumedAt := r } with clk := { clock0 with gated := false, master := 9 } }
    (getPlc (s 65536 none) 0).drain = none ∧ tblWf core0 (s 65536 none).cores = true
      ∧ after_ (.noProgress 0) (s 65536 none) (fun t => (getPlc t 0).state == .recovering && (getCore t 21).pstate
            && (tget none t.rcv.runs 0).map (fun r => (r.cause, r.step, r.seq)) == some (2, 1, 1)) = true
      ∧ after_ (.noProgress 0) (s 65536 (some 3)) (fun t => (getPlc t 0).state == .stopped) = true
      ∧ after_ (.noProgress 0) (setPlc (s 0 none) 0 { run0 with watchdog := 65536, drain := some { fault := true, start := 0, limit := 32, unload := false } })
          (fun t => (getPlc t 0).drain == none) = true
      ∧ same (.noProgress 0) (s 65535 none) = true := by decide +kernel

def drain0 (f : Bool) : DrainSt := { fault := f, start := 0, limit := 32, unload := false }
def recov1 : Recovery :=
  { seq := 1, step := 1, attempt := 0, cause := 4, issued := 0, faults := [], settled := [], unit := none, subst := [], repair := [], kind := none,
    flipSet := false, vote := none, acked := false, planned := true }
/-- DrainsEndWithCoresStopped: quiet drains of both kinds, a fault drain at its limit of 32 in tick 2, and a context drain at 4 ms. -/
theorem witness_drains :
    let s := fun (f : Bool) (m : Tick) => { setPlc sState 0 { run0 with drain := some (drain0 f) } with
      clk := { clock0 with gated := false, master := m }, rcv := { recov0 with runs := [(0, some recov1)] } }
    let ended := fun (t : State) => (getPlc t 0).drain.isNone && (getCore t 21).run == .stopped
    tblWf core0 (s true 0).cores = true ∧ tblWf plc0 (s true 0).plcs = true ∧ quiet (s true 0) 0 = true ∧ gatesDecided (s false 0) 0 = true
      ∧ after_ (.drainEnd 0) (s true 0) ended = true ∧ after_ (.drainEnd 0) (s false 0) ended = true
      ∧ after_ (.drainLimit 0) (s true 2) ended = true ∧ same (.drainLimit 0) (s false 2) = true
      ∧ same (.contextDrainTimeout 0) (s false 399999) = true
      ∧ after_ (.contextDrainTimeout 0) (s false 400000) (fun t => (getPlc t 0).drain.any fun d => d.fault && d.start == 400000) = true := by
  decide +kernel

def cmd (w0 w1 : Nat) : Cmd := { index := 4, words := BitVec.ofNat 512 (w0 + w1 * 2 ^ 64), started := false }
/-- Ring 18's events and ring 17's completions enabled, with a command at the front of ring 8. -/
def cmdState (s : State) (c : Cmd) : State := { s with cmds := [c] }
/-- LoadingStartingAndUnloading: a LOAD that its report refuses, LOADs that pass without and with a stream, and refusals for a missing and a wrong
schedule entry, a missing slack stage, a queue too small for its round trip and a cadence below 4; a start; the three unloads. -/
theorem witness_placements :
    let l := cmdState { on with fab := { fabric0 with tab0 := { tables0 with written := true } }, brg := { bringUp0 with phase := 6 } } (cmd (2 * 2 ^ 56 + 7) 0)
    let u := fun (x : Placement) => cmdState (setPlc sState 0 x) (cmd (3 * 2 ^ 56 + 7) 0)
    tblWf core0 l.cores = true ∧ tblWf plc0 l.plcs = true ∧ nextOf l 2 = some (cmd (2 * 2 ^ 56 + 7) 0)
      ∧ (loadCode l 0 { image0 with stampedId := 2 }).isSome = true
      ∧ (∀ x ∈ [plc0, { plc0 with state := .stopped }, run0], nextOf (u x) 3 = some (cmd (3 * 2 ^ 56 + 7) 0) ∧ tblWf core0 (u x).cores = true ∧ tblWf plc0 (u x).plcs = true)
      ∧ after_ (.load { image0 with stampedId := 2 }) l (fun t => t.cmds == [] && t.plcs == []) = true
      ∧ loadCode l 0 image0 = none ∧ loadCode l 0 image1 = none
      ∧ (∀ x ∈ [({ image1 with sched := [] }, 8), ({ image1 with sched := [(2768, 0xC001)] }, 8), (noSlack, 13),
            ({ image1 with segs := [{ seg1 with wait := 200 }] }, 9), ({ image1 with units := [{ unit0 with cadence := 3 }] }, 3)], loadCode l 0 x.1 = some x.2)
      ∧ after_ (.load image0) l (fun t => (getPlc t 0).state == .loaded && (getPlc t 0).armed == some 0 && (getCore t 21).plc == some 0
            && (getCore t 21).run == .stopped && t.cmds.map (·.started) == [true]) = true
      ∧ after_ .unload (u plc0) (fun t => t.cmds == []) = true
      ∧ after_ .unload (u { plc0 with state := .stopped }) (fun t => t.plcs == [] && t.cores == []) = true
      ∧ after_ .unload (u run0) (fun t => (getPlc t 0).drain == some { fault := false, start := 0, limit := 0, unload := true }) = true
      ∧ after_ (.placementStart 0) { setPlc (setCore State.reset 21 { sCore with startPc := 3, pc := 9 }) 0 { plc0 with state := .loaded, armed := some 4 } with
            clk := { clock0 with gated := false, master := 5 } } (fun t => (getPlc t 0).state == .running && (getCore t 21).run == .running
              && (getCore t 21).pc == 3 && (getCore t 21).startTick == 5) = true := by decide +kernel

def hrow (s : State) (row n : Nat) : State := hbmWrite s 1 row n false
/-- LoamIsCheckedAndExported: no block to check; two shards of one row, 6 and 3, with their XOR, 5; a job without shards. -/
theorem witness_loam :
    let ex := cmd (1 * 2 ^ 56 + 2 * 2 ^ 52 + 1 * 2 ^ 50 + 7) (1 * 2 ^ 59 + 40 * 2 ^ 32 + 1)
    let ex := { ex with words := ex.words ||| BitVec.ofNat 512 ((13000 + 13001 * 2 ^ 16 + 13002 * 2 ^ 32) * 2 ^ 128) }
    let s := { cmdState (hrow (hrow State.reset 40 6) 41 3) ex with fab := { fabric0 with tab0 := { tables0 with written := true, hostPort := some 0 } } }
    let z := cmd (1 * 2 ^ 56 + 7) 1
    let c := setPlc sState 0 run0
    (getPlc c 0).copyB = none ∧ after_ (.loamCopyBCheck 0) c (fun t => (getPlc t 0).copyB == some true) = true
      ∧ nextOf s 1 = some ex ∧ jobOk s ex = true ∧ rowHasErrs s.hbm (hbmAddr 1 40 / 16) = false ∧ rowMarks s.hbm (hbmAddr 1 41 / 16) = 0
      ∧ after_ .exportJob s (fun t => (t.out.take 3).map (fun (o : Out) => match o with | .hostEntry d l => (d.toNat, (l.drop 1).map (·.toNat)) | _ => (0, []))
            == [(13000, [6]), (13001, [3]), (13002, [5])]) = true
      ∧ jobOk { s with cmds := [z] } z = false ∧ after_ .exportJob { s with cmds := [z] } (fun t => t.cmds == [] && t.out.length == 1) = true := by
  decide +kernel

/-! ## Packets -/

def pk0 (dst : Nat) (ptype op : Nat) (rows : List PRow) : Packet :=
  { dst := BitVec.ofNat 14 dst, dstSite := dst, epoch := false, srcSite := 21, src := 21, ptype := ptype, injTime := 0, seq := 7, opn := true,
    srcPois := 0, last := true, op := BitVec.ofNat 128 op, rows := rows, pos := dst, toPort := none, fromPort := none }
def prow (n : Nat) : PRow := { data := BitVec.ofNat 4096 n, poison := 0 }
def pass0 : HallPass :=
  { number := 5, dst := 23, base := 100, rows := 8, srcMask := 0xFFF, srcBase := 3, expiry := 50, counter := 9, credit := 1024,
    paused := false, accepted := 0, refusedW := 0 }
/-- A core at site 23 with a hall pass and a receiving channel, and a packet in turn there. -/
def atCore (k : Packet) : State :=
  let s := setCore on 23 { sCore with run := .running, passes := [pass0], chans := [(3, { chanRecv with
    entry := BitVec.ofNat 64 (2 * 2 ^ 62 + 21 * 2 ^ 48 + 4 * 2 ^ 43 + 100 * 2 ^ 28 + 8 * 2 ^ 15), expected := 6 })] }
  { s with fab := { s.fab with tab0 := { tables0 with written := true }, flight := [k], eps := [(k.pos, { endpoint0 with ctxs := [ctx0 21 7 0] })] } }
def acked (t : State) (code : Option Nat) : Bool :=
  t.fab.flight.map (fun (a : Packet) => (a.ptype, a.dst.toNat, bits a.op.toNat 127 112, bits a.op.toNat 111 104))
    == [(if code.isSome then 8 else 7, 21, 7, code.getD 0)]
def row23 (t : State) (r : Nat) : Nat := memRead t.scratch.cells (scratchAddr 23 r) 512
/-- CorePacketsApply, WRITE: rows at the end of the scratchpad, and one row past it; a hall pass with exactly the credit for two
rows; one row past the pass; a source outside the mask. -/
theorem witness_write :
    let plain := fun (b : Nat) => pk0 23 1 (b * 2 ^ 112 + 3 * 2 ^ 106 + 1 * 2 ^ 72) [prow 6, prow 8]
    let held := fun (off src : Nat) => pk0 23 1 (off * 2 ^ 112 + 5 * 2 ^ 90 + src * 2 ^ 78 + 1 * 2 ^ 72) [prow 6, prow 8]
    (∀ k ∈ [plain 126, plain 127, held 6 3, held 7 3, held 6 2], InTurn (atCore k) 0 k (ctx0 21 7 0) ∧ QuietCore (atCore k) 23)
      ∧ after_ (.write 0 clean) (atCore (plain 126)) (fun t => row23 t 126 == 6 && row23 t 127 == 8 && acked t none
            && rcnt (getCore t 23) 3 == 2) = true
      ∧ after_ (.write 0 clean) (atCore (plain 127)) (fun t => t.scratch == store0 && acked t (some 0x4C)) = true
      ∧ after_ (.write 0 clean) (atCore (held 6 3)) (fun t => row23 t 106 == 6 && row23 t 107 == 8 && acked t none
            && (getCore t 23).passes.map (fun h => (h.credit, h.accepted)) == [(0, 2)] && rcnt (getCore t 23) 9 == 2) = true
      ∧ after_ (.write 0 clean) (atCore (held 7 3)) (fun t => t.scratch == store0 && acked t (some 0x44)) = true
      ∧ after_ (.write 0 clean) (atCore (held 6 2)) (fun t => acked t (some 0x43)
            && (getCore t 23).passes.map (fun h => (h.credit, h.refusedW)) == [(1024, 1)]) = true := by
  unfold InTurn Taken QuietCore MemoryOk; decide +kernel

/-- R366 and R373: a further copy of an applied packet is acknowledged again and counted; one of a refused packet is refused again. -/
theorem test_copies_of_answered_packets :
    let k := { pk0 23 1 (127 * 2 ^ 112 + 1 * 2 ^ 72) [prow 6, prow 8] with seq := 6 }
    let f := fun (l : List (BitVec 16 × Nat)) => let s := atCore k
      { s with fab := { s.fab with eps := [(23, { endpoint0 with ctxs := [{ ctx0 21 7 0 with refusals := l }] })] } }
    let got := fun (t : State) => t.fab.flight.map fun (a : Packet) => (a.ptype, bits a.op.toNat 127 112, bits a.op.toNat 111 104)
    after_ (.write 0 clean) (f []) (fun t => got t == [(7, 6, 0)] && tget 0 (getEp t 23).cnt 9 == 1 && t.scratch == store0) = true
      ∧ after_ (.write 0 clean) (f [(6, 0x4C)]) (fun t => got t == [(8, 6, 0x4C)] && tget 0 (getEp t 23).cnt 9 == 0 && t.scratch == store0)
          = true := by decide +kernel

/-- CorePacketsApply, MESSAGE and READ_REPLY: a message past the ring's end, which starts at 0 behind a wrap marker; one of too many
rows; a reply of five rows that end with the scratchpad, and one row past it. -/
theorem witness_message :
    let msg := fun (n : Nat) => pk0 23 2 (3 * 2 ^ 123 + 4 * 2 ^ 118 + 6 * 2 ^ 94 + (n - 1) * 2 ^ 88) [prow (2 ^ 130 + 1), prow 8]
    let at_ := fun (k : Packet) => modCore (atCore k) 23 fun c => setChan c 3 { getChan c 3 with wo := 5, ro := 4, used := 1 }
    let rep := fun (b : Nat) => pk0 23 5 (b * 2 ^ 112 + 3 * 2 ^ 106 + 4 * 2 ^ 94) [prow 6, prow 8]
    (∀ k ∈ [msg 4, msg 5, rep 123, rep 124], InTurn (at_ k) 0 k (ctx0 21 7 0) ∧ QuietCore (at_ k) 23)
      ∧ after_ (.message 0 clean) (at_ (msg 4)) (fun t => bits (row23 t 105) 127 107 == 0x5A * 2 ^ 13 + 3 && row23 t 101 == 8
            && bits (row23 t 100) 130 100 == 2 ^ 30 + 0xA5 * 2 ^ 20 + 3 * 2 ^ 14 + 21 && acked t none
            && (let y := getChan (getCore t 23) 3; (y.wo, y.used, y.expected.toNat, y.delivered.toNat) == (4, 8, 7, 1))) = true
      ∧ after_ (.message 0 clean) (at_ (msg 5)) (fun t => t.scratch == store0 && acked t (some 0x60)
            && (getChan (getCore t 23) 3).cDropped == 1) = true
      ∧ after_ (.readReply 0 clean) (at_ (rep 123)) (fun t => row23 t 123 == 6 && row23 t 124 == 8 && acked t none && rcnt (getCore t 23) 3 == 5) = true
      ∧ after_ (.readReply 0 clean) (at_ (rep 124)) (fun t => t.scratch == store0 && acked t (some 0x4C)) = true := by
  unfold InTurn Taken QuietCore MemoryOk; decide +kernel

/-- The site of port tile 0, with a packet in turn there; rows 40 and 41 of its slice hold 6 and 3. -/
def atTile (k : Packet) : State :=
  let s := hbmWrite (hbmWrite on 0 40 6 false) 0 41 3 false
  let s := { s with tiles := [(0, { tile0 with tables := [(2, { tblDesc0 with w0 := BitVec.ofNat 64 (2 ^ 63 + 320), w1 := 16 })] })] }
  { s with fab := { s.fab with tab0 := { tables0 with written := true }, flight := [k], eps := [(k.pos, { endpoint0 with ctxs := [ctx0 21 7 0] })] } }
def answers (t : State) (l : List (Nat × Nat × Nat)) : Bool :=
  t.fab.flight.map (fun (a : Packet) => (a.ptype, bits a.op.toNat 111 104, (a.rows.map (·.data.toNat)).foldl (· + ·) 0)) == l
def loamPlc (s : State) : State :=
  setPlc s 0 { plc0 with state := .stopped, protects := true, img := some { image0 with loam :=
    [{ unit := 21, rows := 1, stackA := 0, offA := 7, maskA := 1, stackB := 1, offB := 0, maskB := 1, crcA := 0, crcB := 0 }] } }
/-- TilePacketsAreServed: reads at and past the end of a program's rows; a write by a program, and by the host into loam; a gather of
the entry in row 41, and of one past the table's 16. -/
theorem witness_tile :
    let read := fun (row : Nat) => pk0 3042 3 (row * 2 ^ 101 + 2 * 2 ^ 89 + 8 * 2 ^ 73 + 7 * 2 ^ 67) []
    let wr := fun (row src : Nat) => { pk0 3042 4 (row * 2 ^ 101 + 1 * 2 ^ 89) [prow 9, prow 10] with src := BitVec.ofNat 14 src }
    let gat := fun (e : Nat) => pk0 3042 6 (8 * 2 ^ 112 + 7 * 2 ^ 106) [prow (21 * 2 ^ 114 + 2 * 2 ^ 108 + 3 * 2 ^ 103 + 1 * 2 ^ 81 + 1 * 2 ^ 128), prow e]
    let host := fun (k : Packet) => let s := loamPlc (atTile k); { s with fab := { s.fab with eps := [(3042, { endpoint0 with ctxs := [ctx0 13000 7 0] })] } }
    let cell := fun (t : State) (r : Nat) => memRead t.hbm.cells (hbmAddr 0 r) 512
    (∀ k ∈ [read 40, read 8323069, read 8323070, wr 41 21, gat 8, gat 16], InTurn (atTile k) 0 k (ctx0 21 7 0) ∧ kindOf (atTile k) 3042 = some .portTile
          ∧ MemoryOk (atTile k) ∧ HbmClean (atTile k) 0 40 ∧ HbmClean (atTile k) 0 41 ∧ Sendable (atTile k) 3042 21 1 21)
      ∧ InTurn (host (wr 8323079 13000)) 0 (wr 8323079 13000) (ctx0 13000 7 0)
      ∧ after_ (.dmaRead 0 clean) (atTile (read 40)) (fun t => (t.fab.flight.map fun (a : Packet) => (a.ptype, bits a.op.toNat 127 106, a.rows.map fun (r : PRow) => r.data.toNat))
            == [(5, 8 * 64 + 7, [6, 3]), (5, 10 * 64 + 7, [0]), (7, 7 * 2 ^ 6, [])]) = true
      ∧ after_ (.dmaRead 0 clean) (atTile (read 8323069)) (fun t => t.fab.flight.length == 3) = true
      ∧ after_ (.dmaRead 0 clean) (atTile (read 8323070)) (fun t => answers t [(8, 0x70, 0)]) = true
      ∧ after_ (.dmaWrite 0 clean) (atTile (wr 41 21)) (fun t => answers t [(7, 0, 0)] && [cell t 40, cell t 41, cell t 42] == [6, 9, 10]) = true
      ∧ after_ (.dmaWrite 0 clean) (host (wr 8323079 13000)) (fun t => t.hbm == (atTile (wr 0 0)).hbm && t.out.length + t.fab.flight.length == 1) = true
      ∧ after_ (.gather 0 clean) (atTile (gat 8)) (fun t => (t.fab.flight.map fun (a : Packet) => (a.ptype, a.rows.map (·.data.toNat))) == [(5, [3]), (7, [])]) = true
      ∧ after_ (.gather 0 clean) (atTile (gat 16)) (fun t => answers t [(8, 0x73, 0)]) = true := by
  unfold InTurn Taken MemoryOk HbmClean Sendable; decide +kernel

def recd : Rec :=
  { hdr := { pk0 23 1 0 [] with src := 21, seq := 9 }, op := 3, sent := 1, lastTx := 0, crc := 0, base := none, count := 1, kept := [], delayed := none }
def op0 (l : Nat) : Op := { id := 3, kind := .write, dst := 23, slot := some 4, rows := 2, acked := 1, left := l, failed := false }
/-- Site 21 with a record to site 23, an answer from there, and the master count at m. -/
def atSource (l ptype code : Nat) (m : Tick) (r : Rec) : State :=
  let a := { pk0 21 ptype (9 * 2 ^ 112 + code * 2 ^ 104) [] with src := 23 }
  { sState with clk := { clock0 with master := m, gated := false }, fab := { fabric0 with
      tab0 := { tables0 with written := true }, flight := [a], eps := [(21, { endpoint0 with recs := [r], ops := [op0 l], flows := [{ dst := 23, next := 10, busy := false, lastAct := 0 }], ctxs := [ctx0 40 7 0] })] } }
/-- AnswersEndOperations: the last ACK and one before; a final NAK; a busy one at the fourth and the fifth transmission; the
timeout at 800 ticks and one before; a delayed record; a flow and a context at their times and one before. -/
theorem witness_answers :
    let slot := fun (t : State) => tget 0 (getCore t 21).slots 4
    let rec_ := fun (t : State) => (getEp t 21).recs.map fun (q : Rec) => (q.sent, q.delayed.map (·.toNat), q.lastTx.toNat)
    let a := atSource 1 7 0 5 recd
    let late := { recd with delayed := some 0 }
    (getEp a 21).outq = [] ∧ tblWf endpoint0 a.fab.eps = true ∧ findRec (getEp a 21) 23 9 = some recd ∧ findOp a 21 3 = some (op0 1) ∧ payloadCrc recd.kept = recd.crc
      ∧ (address a 21 recd.hdr).1 = a ∧ (address a 21 recd.hdr).2.map (·.toPort) = some none ∧ timeoutOf a recd = 800
      ∧ after_ (.ack 0 clean) a (fun t => slot t == slotWord 2 0 2 5 && rec_ t == [] && (getEp t 21).ops == []) = true
      ∧ after_ (.ack 0 clean) (atSource 2 7 0 5 recd) (fun t => (getEp t 21).ops == [{ op0 1 with acked := 2 }]) = true
      ∧ after_ (.nak 0 clean) (atSource 1 8 0x44 5 recd) (fun t => slot t == slotWord 3 0x44 1 5 && rec_ t == []) = true
      ∧ after_ (.nak 0 clean) (atSource 1 8 0x49 5 { recd with sent := 4 }) (fun t => rec_ t == [(4, some 5, 0)]) = true
      ∧ after_ (.nak 0 clean) (atSource 1 8 0x49 5 { recd with sent := 5 }) (fun t => rec_ t == [] && slot t == slotWord 3 0x50 1 5) = true
      ∧ after_ (.resendTimeout 21 0) (atSource 1 0 0 800 recd) (fun t => rec_ t == [(2, none, 800)]
            && t.fab.flight.map (fun (k : Packet) => (k.dst.toNat, k.seq.toNat)) == [(21, 7), (23, 9)]) = true
      ∧ same (.resendTimeout 21 0) (atSource 1 0 0 799 recd) = true
      ∧ after_ (.resend 21 0) (atSource 1 0 0 100 late) (fun t => rec_ t == [(2, none, 100)]) = true ∧ same (.resend 21 0) (atSource 1 0 0 99 late) = true
      ∧ (let f := fun (m : Tick) => modEp (atSource 1 0 0 m recd) 21 fun e => { e with recs := [] }
         after_ (.flowClose 21 23) (f 3200) (fun t => (getEp t 21).flows == []) = true ∧ same (.flowClose 21 23) (f 3199) = true)
      ∧ after_ (.reorderContextClose 21 40) (atSource 1 0 0 1600 recd) (fun t => (getEp t 21).ctxs == []) = true
      ∧ same (.reorderContextClose 21 40) (atSource 1 0 0 1599 recd) = true := by decide +kernel

/-- PacketsHopAndEpochsFlip: a hop of a packet 799 ticks old and of one of 800; a flip at its time and a tick before; a release at
1,000 ticks and before; a drain. -/
theorem witness_fabric :
    let f := fun (g : Fabric) (m : Tick) => { State.reset with clk := { clock0 with master := m, gated := false }, fab := g }
    let k := { pk0 161 1 0 [] with pos := 22 }
    let g := { fabric0 with flight := [k] }
    let flip := { fabric0 with pending := true, flipTime := 50 }
    let ret := { fabric0 with retiring := true, flippedAt := 5 }
    let dr := { flip with
      drainFrom := some 5, flight := [k], tab1 := { tables0 with written := true }, eps := [(21, { endpoint0 with recs := [recd], ctxs := [ctx0 40 7 0] })] }
    hopTo (f g 0) k .west = some 21 ∧ hopTo (f g 0) k .east = none
      ∧ tooOld (f g 799) k = false ∧ leavesModule { k with pos := 21 } = false
      ∧ after_ (.packetHop 0 .west ⟨false, false⟩) (f g 799) (fun t => t.fab.flight == [{ k with pos := 21 }]) = true
      ∧ after_ (.packetHop 0 .west ⟨false, false⟩) (f g 800) (fun t => t.fab.flight == []) = true
      ∧ after_ (.packetHop 0 .west ⟨false, true⟩) (f g 0) (fun t => t.fab.flight == []) = true ∧ same (.packetHop 0 .east ⟨false, false⟩) (f g 0) = true
      ∧ (let two := { k with dstSite := 0, dst := 0, pos := 161 }
         let q := f { g with flight := [two] } 0
         after_ (.packetHop 0 .west ⟨true, false⟩) q (fun t => t.fab.flight == [{ two with pos := 160 }] || t.fab.flight == [{ two with pos := 1 }]) = true)
      ∧ after_ .epochFlip (f flip 50) (fun t => t.fab.active && t.fab.retiring && t.fab.flippedAt == 50) = true ∧ same .epochFlip (f flip 49) = true
      ∧ after_ .retiringEpochRelease (f ret 1005) (fun t => !t.fab.retiring) = true ∧ same .retiringEpochRelease (f ret 1004) = true
      ∧ same .fabricDrain (f dr 1004) = true
      ∧ after_ .fabricDrain (f dr 1005) (fun t => t.fab.tab0 == { tables0 with written := true } && !t.fab.active && t.fab.flight == []
            && (getEp t 21).recs == [] && (getEp t 21).ctxs == [] && t.fab.drainFrom.isNone) = true := by decide +kernel

/-! ## Links, time and clocks -/

/-- A powered module whose port 3 is this. -/
def linkState (x : LinkPort) : State :=
  { State.reset with
    pwr := { power0 with state := .run, phase := .run }, clk := { clock0 with gated := false, master := 20000, state := .locked, timing := 3 }
    brg := { bringUp0 with phase := 6 }, fab := { fabric0 with tab0 := { tables0 with written := true } }, ports := [(3, x)] }
def upPort : LinkPort := { port0 with state := .up, lanes := 3, locked := 3, trained := true, txSeq := 6, buffer := [4, 5], rxExp := 7, credits := 9, lastAdv := 19200 }
def port3 (t : State) : LinkPort := getPort t 3
/-- PortsTrainAndRetrain: both lanes, one and none; saved settings of which one lane fails, and none saved; without power; a retrain on one
lane and on none, the eighth replay and a lost lane, and one with no cause; a lane lost. -/
theorem witness_training :
    let u := linkState port0
    let v := { u with brg := { u.brg with kind := 1, saved := { u.brg.saved with lanes := [(6, some 1), (7, some 2)] } } }
    let r := linkState { upPort with tries := 8 }
    let l := linkState { upPort with locked := 1 }
    (∀ s ∈ [u, v], powered s = true ∧ fusedOff s 3 = false ∧ (getPort s 3).state = .untrained ∧ s.pwr.linkRst = true)
      ∧ lanesSaved u 3 = false ∧ lanesSaved v 3 = true
      ∧ (∀ s ∈ [r, l], (port3 s).txq = [] ∧ tblWf port0 s.ports = true ∧ (port3 s).trained = true ∧ fusedOff s 3 = false)
      ∧ retrainDue (port3 r) .replayLimit = true ∧ retrainDue (port3 l) .lockLoss = true ∧ retrainDue (port3 l) .replayLimit = false
      ∧ after_ (.portTraining 3 true 3 3) v (fun t => (port3 t).state == .up && (port3 t).lanes == 3 && (port3 t).toReturn == 512 && (port3 t).savedSet) = true
      ∧ after_ (.portTraining 3 true 1 3) u (fun t => (port3 t).state == .up && (port3 t).lanes == 1 && bit t.sbd.cause.toNat 4 && !(port3 t).savedSet) = true
      ∧ after_ (.portTraining 3 false 1 2) u (fun t => (port3 t).state == .fenced) = true
      ∧ after_ (.portTraining 3 true 3 1) v (fun t => (port3 t).state == .training && t.brg.savedBad == 1) = true
      ∧ same (.portTraining 3 true 3 3) { u with pwr := power0 } = true
      ∧ after_ (.retrain 3 .replayLimit 1) r (fun t => (port3 t).state == .up && (port3 t).lanes == 1 && (port3 t).retrains == 1 && (port3 t).rxExp == 7
            && (port3 t).buffer == [4, 5] && (port3 t).credits == 9) = true
      ∧ after_ (.retrain 3 .lockLoss 0) l (fun t => (port3 t).state == .fenced) = true ∧ same (.retrain 3 .replayLimit 1) l = true
      ∧ after_ (.laneLockLoss 3 false) r (fun t => (port3 t).locked == 2 && (port3 t).refLane && (port3 t).state == .up) = true := by
  decide +kernel

/-- A CONTROL flit leaves a port up or has it train anew, whatever its code asks for. -/
theorem test_control_flit :
    ∃ t, exec (.controlFlit 3 9) (linkState upPort) = .next t ∧ ((port3 t).state = .up ∨ (port3 t).state = .training) := by
  refine ⟨_, rfl, ?_⟩
  show (port3 (controlFlit _ 3 9)).state = _ ∨ (port3 (controlFlit _ 3 9)).state = _
  unfold controlFlit; split
  · right; decide +kernel
  · left; decide +kernel

/-- A packet as the link carries it. -/
def hpk (k : Packet) : HostPacket := { head := headOf k, rows := k.rows }
def good : Flit := { flit with seq := 7 }
/-- FlitsAreTakenInOrder: an empty flit, one with a packet, a doorbell of a ring with two entries to come and a stale one; a write of a
pass; a port whose injection point moves, with room and without; a bad flit; a duplicate at the edge of the window; an acknowledgement, an IDLE, a REPLAY, and the timeout at 800 ticks and before. -/
theorem witness_flits :
    let s := linkState upPort
    let h := hpk { pk0 3042 3 (40 * 2 ^ 101) [] with src := 12900 }
    let w := hpk { pk0 12800 1 (5 * 2 ^ 90) [] with src := 13400 }
    let own := { s with passDir := [(5, 23)] }
    let moving := fun (b : List (List HostPacket)) => { linkState { upPort with block := b } with brg := { bringUp0 with phase := 6, units := [(spurSite 3, .fieldDefect)] } }
    let bell := { s with rings := [(0, { ring0 with enable := true, log2 := 4, prod := 4, cons := 4 })] }
    let ack := { flit with ackValid := true, ack := 4, credits := 2 }
    ((port3 s).state = .up ∧ (port3 s).txq = [] ∧ flitGood good = true ∧ flitGood { good with crcOk := false } = false ∧ ack.ack ∈ (port3 s).buffer)
      ∧ after_ (.data 3 good) s (fun t => (port3 t).rxExp == 8 && (port3 t).ackOwed && t.out == [] && t.fab.flight == []) = true
      ∧ (crcHolds h.head h.rows = true ∧ injectable (hostPacket s 3 (spurSite 3) h) = true ∧ lookupId (tabOf s false) 3042 = some (.site 3042))
      ∧ (crcHolds w.head w.rows = true ∧ injectable (hostPacket s 3 (spurSite 3) w) = true ∧ passHolder own (hostPacket s 3 (spurSite 3) w) = some 23)
      ∧ entryMoves s 3 = false ∧ entryMoves (moving []) 3 = true
      ∧ after_ (.data 3 { good with packets := [w] }) own (fun t => t.fab.flight.map (fun (k : Packet) => (k.dst.toNat, k.dstSite)) == [(23, 23)]) = true
      ∧ after_ (.data 3 { good with packets := [h] }) (moving []) (fun t => (port3 t).block == [[h]] && (port3 t).rxExp == 8 && t.fab.flight == []) = true
      ∧ after_ (.data 3 good) (moving (List.replicate 512 [])) (fun t => (port3 t).rxExp == 7 && t.out == [.replayFlit 3 7]) = true
      ∧ after_ (.data 3 { good with packets := [h] }) s (fun t => t.fab.flight.map (fun (k : Packet) => (k.ptype, k.dstSite, k.fromPort)) == [(3, 3042, some 3)]) = true
      ∧ bellRing 0 = some (0, true) ∧ after_ (.doorbell 3 good [(0, 6)]) bell (fun t => (getRing t 0).prod == 6 && (port3 t).rxExp == 8) = true
      ∧ after_ (.doorbell 3 good [(0, 4)]) bell (fun t => t.rings == bell.rings && (port3 t).rxExp == 8) = true
      ∧ after_ (.data 3 { good with crcOk := false }) s (fun t => (port3 t).asked && t.out == [.replayFlit 3 7] && (port3 t).rxExp == 7) = true
      ∧ after_ (.doorbell 3 { good with fec := [(true, true), (false, false)] } [(0, 4)]) s (fun t => t.out == [.replayFlit 3 7] && (port3 t).fec == [(0, 1), (3, 1)]) = true
      ∧ same (.data 3 { good with seq := 7 - 2047 }) s = true
      ∧ after_ (.idle 3 ack) s (fun t => (port3 t).buffer == [5] && (port3 t).credits == 11 && (port3 t).txSeq == 6 && t.out == []) = true
      ∧ after_ (.idleSend 3) (linkState { upPort with ackOwed := true, toReturn := 5 }) (fun t => t.out == [.idleFlit 3 6 5] && (port3 t).toReturn == 0) = true
      ∧ same (.idleSend 3) s = true ∧ after_ (.replay 3 5) s (fun t => t.out == [.resent 3 [5]] && (port3 t).replRecv == 1) = true
      ∧ after_ (.replayTimeout 3) s (fun t => t.out == [.resent 3 [4, 5]] && (port3 t).tries == 1) = true
      ∧ same (.replayTimeout 3) (linkState { upPort with lastAdv := 19201 }) = true := by decide +kernel

/-- ModuleTimeAdvancesAndIsSet: a tick in each of the three states; two SYNC_REQ 10,000 ticks apart and closer; SET at both limits; a
die's copy that differs. -/
theorem witness_time :
    let s := linkState { upPort with lastSync := some 10000 }
    let run := setPlc s 0 { run0 with watchdog := 65530 }
    let ok := { s with clk := { s.clk with setOk := true, dies := [(5, 1)] } }
    (powered s = true ∧ s.chk.toFence = [] ∧ s.chk.detained = [] ∧ tblWf plc0 run.plcs = true ∧ tblWf 0 ok.clk.dies = true)
      ∧ same .tTick { s with pwr := power0 } = true
      ∧ after_ .tTick { s with clk := { s.clk with gated := true } } (fun t => t == { s with clk := { s.clk with gated := true, master := 20001 } }) = true
      ∧ after_ .tTick run (fun t => t.clk.master == 20001 && (getPlc t 0).watchdog == (if watchdogCounts run 0 then 65536 else 65530)) = true
      ∧ after_ (.syncReq 3 77 5 200 6) s (fun t => t.out == [.syncResp 3 77 (20000 * 2 ^ 64 + 5 * 2 ^ 60) (20200 * 2 ^ 64 + 6 * 2 ^ 60)]) = true
      ∧ same (.syncReq 3 77 5 200 6) (linkState { upPort with lastSync := some 10001 }) = true
      ∧ after_ (.setTime 3 (2 ^ 40)) ok (fun t => t.out == [.setResp 3 0] && t.clk.master == 20000 + 2 ^ 40) = true
      ∧ after_ (.setTime 3 (2 ^ 40 + 1)) ok (fun t => t.out == [.setResp 3 2] && t.clk.master == 20000) = true
      ∧ after_ (.setTime 3 1) s (fun t => t.out == [.setResp 3 1] && t.clk.master == 20000) = true
      ∧ after_ .dieTimeCheck ok (fun t => dieTime t 5 == 20000 && t.rpt.next == 1 && t.clk.master == 20000) = true := by decide +kernel

/-- ClocksStartOnALockedPort: a cold start on one lane of port 3; the choice 10 ms later and a tick before; the host's choice; the
handover, and one that loses either port. -/
theorem witness_clocks :
    let c := { linkState port0 with clk := { clock0 with master := 5 } }
    let w := fun (m : Tick) => { linkState { port0 with locked := 1, state := .training } with clk := { clock0 with master := m, waitLock := some 0 } }
    let u := linkState upPort
    let two := { u with ports := [(3, upPort), (4, upPort)], clk := { u.clk with state := .handover, choice := true, chosen := 4 } }
    (powered c = true ∧ c.clk.gated = true ∧ fusedOff c 3 = false ∧ lowestPort (isLocked (w 0)) = some 3 ∧ (getPort u 4).state ≠ .up
        ∧ handoverTarget two = some 4 ∧ powered two = true ∧ two.clk.gated = false)
      ∧ after_ (.coldStart (2 ^ 6) true 8) c (fun t => t.clk.fio && t.clk.fineTrim && (port3 t).locked == 1 && t.clk.waitLock == some 5) = true
      ∧ same (.coldStart (2 ^ 6) true 8) u = true
      ∧ after_ .timingPortChoice (w 1000000) (fun t => t.clk.state == .locked && t.clk.timing == 3 && !t.clk.gated && t.clk.setOk && dieTime t 9 == 1000000) = true
      ∧ same .timingPortChoice (w 999999) = true ∧ same (.chooseTimingPort 4) u = true
      ∧ after_ (.chooseTimingPort 4) { two with clk := u.clk } (fun t => t.clk == { u.clk with choice := true, chosen := 4, state := .handover }) = true
      ∧ after_ .withdrawTimingPort two (fun t => !t.clk.choice && t.clk.state == .handover) = true
      ∧ after_ (.handover 4 false false) two (fun t => t.clk.timing == 4 && t.clk.handovers == 1 && t.clk.state == .locked) = true
      ∧ after_ (.handover 4 true false) two (fun t => t.clk.timing == 3 && t.clk.state == .locked) = true
      ∧ after_ (.handover 4 false true) two (fun t => t.clk.gated && t.clk.state == .coast && t.clk.losses == 1) = true := by decide +kernel

/-- ReferenceLossStopsAndRelockResumes: a placement at work, a port up and one fenced; the relock on port 3 and without a port. -/
theorem witness_reference :
    let u := linkState upPort
    let s := setCore (setPlc { u with ports := [(3, upPort), (4, { port0 with state := .fenced })] } 0 run0) 21 { sCore with run := .running }
    let lost := fun (t : State) => t.clk.gated && t.clk.state == .coast && t.pwr.selfRef && (getPlc t 0).state == .recovering && (getPlc t 0).gatesShut
      && tget 0 t.rcv.causes 0 == 5 && (getCore t 21).run == .stopped
    let coast := { s with clk := { s.clk with gated := true, state := .coast } }
    (powered s = true ∧ s.clk.gated = false ∧ s.exm.shutdown ≠ 1 ∧ tblWf port0 s.ports = true ∧ tblWf core0 s.cores = true ∧ relockPort coast = some 3)
      ∧ after_ (.sourceFailure .missingEdges) s (fun t => lost t && t.ports == s.ports) = true
      ∧ after_ .linkReset s (fun t => lost t && (port3 t).state == .untrained && (port3 t).locked == 0 && (getPort t 4).state == .fenced && !t.pwr.linkRst) = true
      ∧ after_ .linkResetRelease { s with pwr := { s.pwr with linkRst := false } } (fun t => t == s) = true
      ∧ after_ (.relock 9) coast (fun t => t.clk.master == 20009 && !t.clk.gated && t.clk.timing == 3 && t.fab.drainFrom == some 20009 && (port3 t).state == .training) = true
      ∧ relockPort { coast with ports := [] } = none ∧ same (.relock 9) { coast with ports := [] } = true := by decide +kernel

/-! ## Rings -/

/-- A header block with its mark and version (R839), a revision, a key slot, a security version and a body length. -/
def fwHead (rev slot sec len : Nat) : BitVec 32768 :=
  BitVec.ofNat 32768 (0x53564657 + 1 * 2 ^ 32 + slot * 2 ^ 48 + rev * 2 ^ 56 + sec * 2 ^ 64 + len * 2 ^ 96)
def fw0 : Firmware := { head := fwHead 0x41 1 2 512, body := [0], measure := 77 }
def fw1 : FwImage := { readOk := true, head := fwHead 0x41 1 2 512, body := [0] }
def host0 : HostSection :=
  { inBytes := 64, outBytes := 512, nMax := 4, granule := 1, lead := true, intake := [{ dst := 21, counter := 3, base := 0, rows := 8, offset := 0, bytes := 64 }] }
/-- A descriptor of placement 0 with two samples, sequence 5 and tag 9, and the words 2 and 3 at the lowest window. -/
def words0 : BitVec 512 :=
  BitVec.ofNat 512 (2 ^ 56 + 1 + 5 * 2 ^ 64 + 8 * 2 ^ 55 * 2 ^ 128 + 8 * 2 ^ 55 * 2 ^ 192 + 9 * 2 ^ 256)
def desc0 : Desc := { freshDesc 4 words0 0 with checked := true }
/-- A placement at work with its ring on port 3 and its completion ring enabled. -/
def ringState (l : List Desc) : State :=
  let s := linkState upPort
  { setPlc s 0 { run0 with img := some { image0 with host := some host0 } } with
    rings := [(0, { ring0 with enable := true, port := 3, log2 := 4, prod := 5, cons := 4 }), (9, { ring0 with enable := true, log2 := 4, window := 8 })]
    descs := if l == [] then [] else [(0, l)] }
/-- What a completion of ring 9 in slot 0 says: index, status, reason and its two words. -/
def completed (t : State) : List (Nat × Nat × Nat × Nat × Nat) :=
  t.out.filterMap fun (o : Out) => match o with
    | .completion 9 0 w0 w1 w2 _ => some (bits w0.toNat 31 0, bits w0.toNat 63 62, bits w0.toNat 55 48, w1.toNat, w2.toNat)
    | _ => none
/-- RingsCarryDescriptors, up to delivery: HIF_RING enabled in range and out of it, and disabled; a fetch and an unreadable one; RUN of a
good descriptor, of one of five samples and of a repeat; a delivery with its lead row, and one whose input cannot be read. -/
theorem witness_rings :
    let s := ringState []
    let fw := { s with rings := [], sec := { secure0 with fwRunning := some fw0 } }
    let cfg := fun (w : Nat) => BitVec.ofNat 64 (2 ^ 63 + w * 2 ^ 53 + 4096)
    let r := ringState [{ desc0 with checked := false }]
    let big := ringState [{ desc0 with checked := false, n := 5 }]
    let old := { r with seqs := [(0, { high := some 5, set := [5] })] }
    let d := ringState [desc0]
    let shut := { d with plcs := [] }
    (mayFetch s 0 = true ∧ tblWf [] d.descs = true ∧ powered fw = true ∧ fw.fuses.life ≠ 4 ∧ mayDeliver d 0 = true ∧ mayDeliver shut 0 = false ∧ mayFetch { s with ports := [] } 0 = false
        ∧ fetchVerdict r 0 { desc0 with checked := false } = none ∧ Sendable d 12803 21 1 21)
      ∧ ringFieldsOk fw 0 { ring0 with window := 8, offset := 4096, log2 := 4, port := 3 } = true
      ∧ after_ (.hifRing 0 0 (cfg 8)) { fw with rings := [(0, { ring0 with log2 := 4, port := 3, prod := 7 })] } (fun t =>
            getRing t 0 == { ring0 with enable := true, window := 8, offset := 4096, log2 := 4, port := 3 }) = true
      ∧ same (.hifRing 0 0 (cfg 480)) { fw with rings := [(0, { ring0 with log2 := 4, port := 3, prod := 7 })] } = true
      ∧ after_ (.hifRing 0 0 0) { fw with rings := s.rings } (fun t => (getRing t 0).enable == false && (getRing t 0).prod == 5) = true
      ∧ after_ (.descriptorFetch 0 true words0) { s with clk := { s.clk with master := 0 } } (fun t => (getRing t 0).cons == 5
            && getDescs t 0 == [{ desc0 with checked := false }] && t.out == []) = true
      ∧ after_ (.descriptorFetch 0 false words0) s (fun t => completed t == [(4, 1, 0x24, 0, 0)] && getDescs t 0 == []) = true
      ∧ same (.descriptorFetch 0 true words0) { s with ports := [] } = true
      ∧ after_ (.run 0 4) r (fun t => getDescs t 0 == [desc0] && t.out == []) = true
      ∧ after_ (.run 0 4) big (fun t => completed t == [(4, 1, 0x23, 5, 9)] && getDescs t 0 == []) = true
      ∧ after_ (.run 0 4) old (fun t => completed t == [(4, 2, 0x30, 5, 9)]) = true
      ∧ after_ (.inputDelivery 0 true [0]) d (fun t => (getPlc t 0).nextSample == 2 && (getPlc t 0).batches == [(0, 2)] && t.out == [.hostRead 3 8 0 1]
            && (getDescs t 0).map (fun (e : Desc) => (e.state == .delivering, e.tag0)) == [(true, 0)]
            && t.fab.flight.map (fun (k : Packet) => (k.ptype, k.dst.toNat, k.rows.head?)) == [(1, 21, some { data := BitVec.ofNat 4096 (leadRow desc0 0), poison := 0 })]) = true
      ∧ after_ (.inputDelivery 0 false []) d (fun t => completed t == [(4, 1, 0x24, 5, 9)]) = true ∧ same (.inputDelivery 0 true [0]) shut = true := by
  unfold Sendable; decide +kernel

/-- RingsCarryDescriptors, from the output on: the last row of a descriptor and one past it; a commit at 8 ticks and at 7, and of a
poisoned descriptor; the counters at 100 ms; ACCEPT_GRADE and CLOSE_PASS. -/
theorem witness_output :
    let run := { desc0 with state := .running, rows := [0] }
    let out := fun (tag off : Nat) => { pk0 12832 1 (off * 2 ^ 112 + tag * 2 ^ 90) [prow 6] with injTime := 20000, dstSite := spurSite 3, pos := spurSite 3, toPort := some 3 }
    let s := fun (k : Packet) (d : Desc) => let s := ringState [d]
      { s with fab := { s.fab with tab0 := { tables0 with written := true, outs := [(0, some 3)] }, flight := [k], eps := [(12803, { endpoint0 with ctxs := [ctx0 21 7 0] })] } }
    let got := fun (t : State) => t.fab.flight.map fun (a : Packet) => (a.ptype, bits a.op.toNat 111 104)
    let gate := fun (m : Tick) (p : Bool) => ringState [{ run with state := .gated, lastOut := some m, poison := p, n := 2 }]
    let ev := { setPlc (ringState []) 0 { run0 with changed := true, committed := 8, discarded := 3 } with
      clk := { clock0 with master := 10000000 }, rings := [(18, { ring0 with enable := true, log2 := 4 })] }
    let ag := cmdState (ringState []) (cmd (4 * 2 ^ 56 + 7) 0)
    let cp := { cmdState (withCore 21 { sCore with passes := [pass0] }) (cmd (6 * 2 ^ 56 + 5 * 2 ^ 32 + 7) 0) with passDir := [(5, 21), (6, 21)] }
    (accepts (s (out 1 1) run) (out 1 1) = true ∧ Taken (s (out 1 1) run) (out 1 1) ∧ transitPoison (out 1 1) = false ∧ descLive run = true ∧ tagDesc (s (out 1 1) run) 0 1 = some run ∧ tagDesc (s (out 2 1) run) 0 2 = none
        ∧ tget none (gate 0 true).rcv.runs 0 = none ∧ nextOf ag 4 = some (cmd (4 * 2 ^ 56 + 7) 0) ∧ nextOf cp 6 = some (cmd (6 * 2 ^ 56 + 5 * 2 ^ 32 + 7) 0))
      ∧ after_ (.outputWrite 0 clean) (s (out 1 1) run) (fun t => (getDescs t 0).map (fun (e : Desc) => (e.rows, e.state == .gated, e.lastOut)) == [([0, 1], true, some 20000)]
            && (7, 0) ∈ got t) = true
      ∧ after_ (.outputWrite 0 clean) (s (out 1 2) run) (fun t => (getDescs t 0) == [run] && got t == [(8, 0x4E)]) = true
      ∧ after_ (.outputWrite 0 clean) (s (out 2 1) run) (fun t => got t == [(8, 0x4D)]) = true
      ∧ after_ (.commitGateOpen 0 4) (gate 19992 false) (fun t => completed t == [(4, 0, 0, 5, 9)] && (getPlc t 0).committed == 2 && t.descs == []
            && doneBefore (tget seqRec0 t.seqs 0) 5) = true
      ∧ same (.commitGateOpen 0 4) (gate 19993 false) = true
      ∧ after_ (.commitGateOpen 0 4) (gate 19992 true) (fun t => completed t == [(4, 1, 0x25, 5, 9)] && t.seqs == []) = true
      ∧ after_ (.countersEvent 0) ev (fun t => (t.out.map fun (o : Out) => match o with | .event _ w0 _ l => (bits w0.toNat 55 48, l[6]?, l[7]?) | _ => (0, none, none))
            == [(2, some 8, some 3)] && !(getPlc t 0).changed) = true
      ∧ same (.countersEvent 0) { ev with clk := { clock0 with master := 9999999 } } = true
      ∧ after_ .acceptGrade ag (fun t => t.brg.accepted && t.cmds == []) = true
      ∧ after_ .closePass cp (fun t => t.passDir == [(6, 21)] && (getCore t 21).passes == []) = true := by
  unfold Taken; decide +kernel

/-! ## Power and bring-up -/

def slot9 : SaveSlot := { saveSlot0 with valid := true, seq := 9 }
/-- WakesStartTheModule: power-on with main in range and not; both wakes latched; a wake taken; main's return; a brown-out in service and
in an auxiliary-sag save; T0 at its period and a tick before; a trip, and the end of its latch; a hot stack. -/
theorem witness_wakes :
    let rec_ := { State.reset with pwr := { power0 with state := .recess } }
    let latched := { State.reset with pwr := { power0 with state := .recess, latched := some (.link, 3) } }
    let run := { linkState upPort with cores := sState.cores }
    let t0 := fun (m : Tick) => { run with clk := { run.clk with master := m } }
    let up := fun (t : State) (src : WakeSrc) (n : Nat) => t.pwr.state == .startup && t.pwr.wakeSrc == src && t.pwr.wakes.toNat == n
    let trip := { State.reset with pwr := { power0 with state := .recess, trip := some 5, latched := some (.twoWire, 0) } }
    (State.reset.pwr.state = .off ∧ powered run = true)
      ∧ after_ (.powerOn true) State.reset (fun t => up t .powerOn 0 && t.pwr.wakeEn == 3 && t.pwr.t0Period == 1000) = true
      ∧ after_ (.powerOn false) State.reset (fun t => t.pwr.state == .recess) = true
      ∧ after_ (.twoWireWake 0x4B) rec_ (fun t => t.pwr.latched == some (.twoWire, 0)) = true ∧ same (.twoWireWake 0x4C) rec_ = true
      ∧ after_ (.linkSignalWake 3) rec_ (fun t => t.pwr.latched == some (.link, 3)) = true
      ∧ after_ (.wake true) latched (fun t => up t .link 1 && t.pwr.wakePort == 3 && t.pwr.latched.isNone) = true
      ∧ after_ (.wake false) latched (fun t => t.pwr.state == .recess && t.pwr.wakeSrc == .link) = true
      ∧ after_ .mainReturn { rec_ with pwr := { rec_.pwr with mainSag := true, wakes := 255 } } (fun t => up t .saveResume 255) = true
      ∧ after_ (.brownOut true) run (fun t => up t .brownOut 1 && t.cores == []) = true
      ∧ after_ (.brownOut true) { run with pwr := { power0 with state := .save, saveCause := 3 } } (fun t => t.pwr.state == .off) = true
      ∧ after_ (.t0Expiry true) (t0 100000000) (fun t => up t .watchdog 1) = true ∧ same (.t0Expiry true) (t0 99999999) = true
      ∧ after_ .thermalTrip run (fun t => t.pwr.state == .recess && t.pwr.trip == some 20000 && t.sbd.cause == 0x80) = true
      ∧ after_ (.tripLatchClear true) trip (fun t => up t .twoWire 1 && t.pwr.trip.isNone) = true
      ∧ after_ (.sensorRefresh 2 700 760 0 900) run (fun t => tget 0 t.rpt.stackTemps 2 == 760 && tget 0 t.rpt.volts 2 == 900 && bit t.sbd.cause.toNat 1) = true := by
  decide +kernel

/-- SavesNapsAndWaves: a sag that is armed and one that is not; the ends of a save. -/
theorem witness_saves :
    let run := linkState upPort
    let armed := { run with pwr := { run.pwr with armed := true, slotA := slot9 } }
    let saving := fun (c : BitVec 2) => { run with pwr := { power0 with state := .save, saving := some (5, true, c) } }
    newestSlot armed = some (false, slot9)
      ∧ after_ .mainSag armed (fun t => t.pwr.state == .save && t.pwr.saving == some (20000, true, 2) && t.pwr.slotA == slot9 && t.pwr.slotB.seq == 10
            && !t.pwr.slotB.valid && t.pwr.slotB.time == 20000) = true
      ∧ after_ .auxiliarySag armed (fun t => t.pwr.saveCause == 3) = true ∧ after_ .pgInLow armed (fun t => t.pwr.saveCause == 2) = true
      ∧ after_ .mainSag run (fun t => t.pwr.state == .recess && t.pwr.slotA == run.pwr.slotA) = true ∧ same .auxiliarySag run = true
      ∧ after_ (.saveWindowEnd true 8) (saving 2) (fun t => t.pwr.state == .recess && t.pwr.slotB.valid && t.pwr.saveRes == 1 && t.pwr.saveDur == 8) = true
      ∧ after_ (.saveWindowEnd false 8) (saving 3) (fun t => t.pwr.state == .save && !t.pwr.slotB.valid && t.pwr.saveRes == 2) = true := by
  decide +kernel

/-- SavesNapsAndWaves: a nap from a placement at work, once drained, and its end; a shutdown whose exam is skipped, and its save. -/
theorem witness_naps :
    let run := linkState upPort
    let busy := setPlc run 0 run0
    let nap := fun (ph : PwrPhase) => { run with pwr := { run.pwr with phase := ph }, scratch := (scratchWrite run 21 0 5 false).scratch }
    let shut := fun (x : Exam) => { nap .shuttingDown with exm := x }
    (requestReady busy = true ∧ drainedAll (nap .enteringNap) = true)
      ∧ after_ .nap busy (fun t => t.pwr.phase == .enteringNap && (getPlc t 0).drain.isSome) = true
      ∧ after_ .recess busy (fun t => t.pwr.phase == .shuttingDown && (getPlc t 0).drain.isSome) = true
      ∧ after_ .nap { busy with cmds := [{ cmd 0 0 with started := true }] } (fun t => t.pwr.phase == .run && t.pwr.request == 1) = true
      ∧ after_ .nap (nap .enteringNap) (fun t => t.pwr.state == .nap && t.pwr.selfRef && t.scratch == store0) = true
      ∧ after_ .leaveNap (nap .nap) (fun t => t.pwr.phase == .leavingNap && t.pwr.request == 2) = true
      ∧ after_ .leaveNap { run with pwr := { run.pwr with phase := .leavingNap, wavesEnd := true, selfRef := true } } (fun t => t.pwr.phase == .run
            && !t.pwr.selfRef && t.fab.drainFrom == some 20000) = true
      ∧ after_ .recess (shut { exam0 with skip := true }) (fun t => t.exm.shutdown == 2 && t.exm.status.head? == some (BitVec.ofNat 64 (5 * 2 ^ 56 + 2 ^ 54))) = true
      ∧ after_ .recess (shut { exam0 with shutdown := 2 }) (fun t => t.pwr.state == .save && t.pwr.saveCause == 1) = true := by decide +kernel

/-- SavesNapsAndWaves: RG31's slot at its time and a tick before; its last sub-wave and the one before; rails that fail. -/
theorem witness_waves :
    let run := linkState upPort
    let wave := fun (k : Nat) (m : Tick) => { run with clk := { run.clk with master := m }, pwr := { power0 with state := .startup, waveAt := some 0, waveSub := [(30, 1), (31, k)] } }
    let rail := { run with pwr := { run.pwr with waveSub := [(31, 6)] } }
    (wavesDue (wave 5 0) = true ∧ railUp (wave 6 0) 31 = true)
      ∧ after_ (.waveSlot 31) (wave 0 775000) (fun t => tget 0 t.pwr.waveSub 31 == 1) = true ∧ same (.waveSlot 31) (wave 0 774999) = true
      ∧ after_ (.subWave 31 4) (wave 5 795000) (fun t => tget 0 t.pwr.waveSub 31 == 6 && t.pwr.wavesEnd) = true
      ∧ after_ (.subWave 31 3) (wave 4 795000) (fun t => tget 0 t.pwr.waveSub 31 == 5 && !t.pwr.wavesEnd) = true
      ∧ (wavesDue (wave 2 0) = true ∧ 2 ≤ tget 0 (wave 2 0).pwr.waveSub 31 ∧ bit (wave 2 0).pwr.railOff.toNat 31 = false)
      ∧ railUp rail 31 = true ∧ bit rail.brg.regionsOut.toNat 31 = false
      ∧ after_ (.railLeavesRegulation .other) run (fun t => t.pwr.unreg) = true := by decide +kernel

/-- R357, R669: a packet from (30, 2) to (50, 2) crosses at the tiles of row 2, and at those of row 7 where both links are disabled. -/
theorem test_crossing_avoids_disabled_links :
    let k := { pk0 370 1 0 [] with pos := 350, srcSite := 350 }
    let cut := { State.reset with brg := { bringUp0 with links := [(718, .disabled), (719, .disabled)] } }
    (routed State.reset k).crossX = some 0 ∧ (routed cut k).crossX = some 1
      ∧ exits (routed cut k) 350 = [(7 * 160 + 39, 7 * 160 + 40)] := by decide +kernel

/-- StartsGradeTheModule: a link by its failed wires, saved and not; a channel, its settings saved at this temperature and 25.125 °C away; an exam at a shutdown and at a start, passed and not; roll
call of nothing and of an array; the ready phase. -/
theorem witness_bring_up :
    let run := linkState upPort
    let s := { run with pwr := { power0 with state := .startup, wavesEnd := true, waveSub := [(0, 6), (1, 6), (2, 6)] }, sec := { secure0 with fwRunning := some fw0 }, brg := bringUp0 }
    let kept := fun (temp : Int) => { s with brg := { bringUp0 with
      kind := 1, saved := { lanes := [(3, some 1), (4, some 2)], links := [(718, some 1)], chans := [(6, some { timing := 1, repairs := [], temp := temp })] } } }
    let slow := { s with brg := { bringUp0 with kind := 2 } }
    let down := { run with pwr := { run.pwr with phase := .shuttingDown }, exm := { exam0 with shutdown := 1 } }
    let last := { s with brg := { bringUp0 with rolled := true, phase := 5 } }
    let bad := { found0 with unitsFailed := [21], diesFailed := 1 }
    (linkUsable s 359 = true ∧ railUp s (regionOf 359) = true ∧ starting s = true ∧ linkFree s 718 = true ∧ chanSaved (kept (-200)) 3 false = true ∧ chanSaved (kept 201) 3 false = false ∧ examDue slow = true ∧ examDue s = false ∧ drainedAll down = true
        ∧ groupFree (getM s (mcoreSite 5)) true 2 = true ∧ groupFree (setSkip mcore0 true 2 9) true 2 = false)
      ∧ (∀ x ∈ [([0, 1, 2], LinkMode.full), ([3, 4, 5, 6], .half), ([3, 4, 5, 6, 7], .disabled)],
          after_ (.dieLinkTraining 360 false false x.1) s (fun t => tget .full t.brg.links 718 == x.2) = true)
      ∧ after_ (.dieLinkTraining 359 false true [3]) (kept 0) (fun t => t.brg.savedBad == 1 && t.brg.saved.links == []) = true
      ∧ same (.hbmTraining 3 false true [] true) (kept (-200)) = true
      ∧ after_ (.hbmTraining 3 false true [7, 9] true) (kept 201) (fun t => ((tget none t.brg.saved.chans 6).map fun x => (x.repairs, x.temp)) == some ([7, 9], 0)) = true
      ∧ after_ (.hbmTraining 3 false true [] false) (kept 0) (fun t => t.brg.savedBad == 1 && t.brg.saved.chans == []) = true
      ∧ after_ (.hbmTraining 3 false false [1, 2, 3] true) s (fun t => isFenced t (tileSite 3)) = true
      ∧ after_ (.exam found0) down (fun t => t.exm.shutdown == 2 && (t.exm.status.take 2) == [BitVec.ofNat 64 (2 ^ 56 + 2 ^ 54), 20000] && t.rpt.fdm == []) = true
      ∧ after_ (.exam bad) down (fun t => bits (t.exm.status.getD 0 0).toNat 63 56 == 2 && t.rpt.fdm == [21]) = true
      ∧ after_ (.exam { found0 with unitsFailed := [21] }) slow (fun t => t.brg.examOk && t.rpt.fdm == [21]) = true
      ∧ after_ (.exam { found0 with moduleFail := true }) slow (fun t => t.clk.safe && !t.brg.examOk) = true
      ∧ after_ (.exam { found0 with lanesFailed := 16 }) { slow with brg := { slow.brg with saved := (kept 0).brg.saved } } (fun t => t.brg.saved.lanes == [(3, some 1)]) = true
      ∧ after_ (.rollCall [21] [] []) s (fun t => t.brg.rolled && t.brg.failed == [21]) = true
      ∧ after_ (.rollCall [] [] [(5, true, 2, 9)]) s (fun t => (getM t (mcoreSite 5)).arrayBad == [(true, 2, 9)] && bits (getM t (mcoreSite 5)).map1.toNat 20 14 == 9
            && bits (getM t (mcoreSite 5)).map1.toNat 13 7 == 64) = true
      ∧ after_ .reconcile last (fun t => t.brg.phase == 6 && t.pwr.state == .run && t.pwr.armed && t.pwr.runMark) = true
      ∧ same .reconcile { last with fab := { last.fab with drainFrom := some 5 } } = true := by decide +kernel

/-! ## Registers and checking -/

/-- A module in service that runs its firmware. -/
def fwState : State := { linkState upPort with sec := { secure0 with fwRunning := some fw0 } }
/-- StepTakesFrontCommand, EveryCommandAnswersNextState, ResetRegisterValues, ResetKeepsTheInvariants, StepKeepsMemoriesCanonical,
StepKeepsPolicyRanges: an empty queue, and one command taken; the forms that reset has. -/
theorem witness_step : State.reset.pending = [] ∧ step { State.reset with pending := [.linkResetRelease, .tTick] } = exec .linkResetRelease { State.reset with pending := [.tTick] }
    ∧ MemoryOk State.reset ∧ PolicyOk State.reset := ⟨rfl, rfl, by unfold MemoryOk; decide, by unfold PolicyOk; decide⟩

/-- WakeRegisterHoldsAllowedWrites, WatchdogAndMarginRegisters, FabricTimeoutAndTargetAddress, RefusedWriteChangesNoRegister,
RegisterWordsAtTheirOffsets: allowed and refused writes of PRC_WAKECFG, PRC_T0, CHK_MARGIN, MGT_SMB and FAB_RSTO at the edges of their
ranges; two registers at their offsets; the policy registers and the memories at reset. -/
theorem witness_registers :
    let wr := fun (o v : Nat) (p : State → Bool) => after_ (.registerWrite (BitVec.ofNat 32 o) [BitVec.ofNat 64 v]) fwState p = true
    let no := fun (o v : Nat) => same (.registerWrite (BitVec.ofNat 32 o) [BitVec.ofNat 64 v]) fwState = true
    powered fwState = true ∧ fwState.sec.fwRunning.isSome = true ∧ MemoryOk State.reset ∧ PolicyOk State.reset
      ∧ wr 0x2000 (2 ^ 8 + 0x77) (fun t => readReg t .prcWakecfg 0 0 == 0x177) ∧ no 0x2000 (2 ^ 8 + 0x78) ∧ no 0x2000 (2 ^ 8 + 0x07) ∧ no 0x2000 0x4B ∧ no 0x2000 (2 ^ 9 + 0x14B)
      ∧ wr 0x2018 10000 (fun t => readReg t .prcT0 0 0 == 10000) ∧ no 0x2018 10001 ∧ no 0x2018 99 ∧ no 0x2018 (2 ^ 16 + 100)
      ∧ wr 0x20020 0x88 (fun t => readReg t .chkMargin 0 0 == 0x88) ∧ no 0x20020 0x90 ∧ no 0x20020 0x8C ∧ no 0x20020 1
      ∧ wr 0x34040 0x108 (fun t => readReg t .mgtSmb 0 0 == 0x108) ∧ no 0x34040 0x07 ∧ no 0x34040 0x80
      ∧ wr 0x3010 (128 * 256 + 2) (fun t => readReg t .fabRsto 0 0 == 0x8002) ∧ no 0x3010 (129 * 256 + 2) ∧ no 0x3010 (4 * 256 + 1)
      ∧ (writeAt fwState false 0x2000 [BitVec.ofNat 64 (2 ^ 9)]).1 ≠ 0 ∧ reservedBits .prcWakecfg 0 &&& 2 ^ 9 ≠ 0
      ∧ (regAt 0x2018).map (fun x => (x.row.reg, x.inst, x.word)) = some (.prcT0, 0, 0) := by unfold MemoryOk PolicyOk; decide +kernel

def det0 (clean fails : Nat) (out : Bool) : Detained := { unit := 21, out := out, clean := clean, fails := fails, action := 0, since := 0, lastQuiz := 0 }
/-- CheckingCountsAndLimits: enables; a nomination of a unit and of an ID that names none; a cap at its floor and below; the limiter above
98% and below 95%; an hour; segments of quizzes before the last, and last ones that fail, pass and are outvoted; detention at 30 s and before, at the
63rd and the 64th clean quiz. A right answer is a stored one, which has no value here: of a quiz that passes, the end is worked out alone. -/
theorem witness_checking :
    let s := fwState
    let pts := { s with chk := { check0 with points := [(21, [4, 1])] } }
    let at_ := fun (x : State) (m : Tick) => { x with clk := { x.clk with master := m } }
    let qz := fun (x : State) (n : Nat) (bad : Bool) => { x with chk := { x.chk with quizzes := [(21, { done := n, bad := bad })] } }
    let d := fun (c f : Nat) => at_ { pts with chk := { pts.chk with detained := [det0 c f true] } } 3000000000
    let out3 := { s with chk := { s.chk with seeded := [(23, quizSeed s, 5), (25, quizSeed s, 5)] } }
    let calm := fun (x : State) => x.chk.toFence == [] && (x.chk.detained.all fun e => e.out) && nowT x / 2160000000000 == x.chk.rotation
    let lim := { s with chk := { check0 with limitOrder := [2], limitClk := [(2, 1)], inputHold := true } }
    (s.fuses.life ≠ 4 ∧ siteOfId s 21 = some 21 ∧ (kindOf s 21).isSome = true ∧ isFenced s 21 = false ∧ isDetained s 21 = false ∧ siteOfId s 12850 = none
        ∧ quizzable s 21 = true ∧ quizzesRun (d 9 0) = true ∧ segmentMay s 21 3 = true ∧ segmentMay (d 9 0) 21 3 = true ∧ calm s = true ∧ calm (d 9 0) = true
        ∧ calm out3 = true ∧ kindOf s 23 = kindOf s 21 ∧ kindOf s 25 = kindOf s 21 ∧ segmentCount (kindOf s 21) = 40
        ∧ tblWf [] pts.chk.points = true ∧ tblWf 0 lim.chk.limitClk = true)
      ∧ after_ (.chkCtrl 0x7C) s (fun t => t.chk.enables == 0x3E && t.chk.void) = true ∧ after_ (.chkCtrl 0x7E) s (fun t => !t.chk.void) = true
      ∧ after_ (.chkSuspect (BitVec.ofNat 64 (2 ^ 63 + 21 * 2 ^ 48))) s (fun t => t.chk.suspRes == 1 && t.chk.suspId == 21 && t.chk.suspects == 1) = true
      ∧ after_ (.chkSuspect (BitVec.ofNat 64 (2 ^ 63 + 12850 * 2 ^ 48))) s (fun t => t.chk.suspRes == 2 && t.chk.suspects == 0) = true
      ∧ after_ (.pwrCap 3000) s (fun t => t.chk.cap == 3000) = true ∧ same (.pwrCap 2999) s = true ∧ same (.pwrCap 5401) s = true
      ∧ after_ (.limiterSample 5293 0 54000 [3]) s (fun t => tget 0 t.chk.limitClk 3 == 1 && t.chk.limitOrder == [3] && t.chk.lastLower == 20000) = true
      ∧ after_ (.limiterSample 5292 0 54000 [3]) s (fun t => t.chk.limitOrder == []) = true
      ∧ after_ (.limiterSample 5129 0 54000 []) (at_ lim 100000) (fun t => tget 0 t.chk.limitClk 2 == 0 && t.chk.limitOrder == [] && !t.chk.inputHold) = true
      ∧ after_ .pointBucketDrop (at_ pts 360000000000) (fun t => t.chk.hour == 1 && tget [] t.chk.points 21 == [0, 4, 1]) = true
      ∧ same .pointBucketDrop (at_ pts 359999999999) = true
      ∧ after_ (.microQuiz 21 ⟨3, 0, 5⟩) (qz s 38 true) (fun t => t.chk.quizzes == [(21, { done := 39, bad := true })] && t.chk.suspects == 0) = true
      ∧ after_ (.microQuiz 21 ⟨3, 0, 5⟩) (qz s 39 true) (fun t => t.chk.quizzes == [] && t.chk.quizzed == [21] && t.chk.suspects == 1) = true
      ∧ (let x := endQuiz (qz s 39 false) 21 false 5; x.2 = true ∧ x.1.chk.quizzed = [21] ∧ x.1.chk.points = [] ∧ x.1.chk.seeded = [(21, quizSeed s, 5)])
      ∧ (let x := endQuiz (qz out3 39 false) 21 false 6; x.2 = false ∧ x.1.chk.seeded = [(23, quizSeed s, 5), (25, quizSeed s, 5)])
      ∧ same (.microQuiz 21 ⟨3, 0, 5⟩) (setCore (setPlc s 0 { run0 with drain := some (drain0 true) }) 21 { sCore with run := .running }) = true
      ∧ same (.detentionQuiz 21 ⟨3, 0, 5⟩) (at_ (d 0 0) 2999999999) = true
      ∧ after_ (.detentionQuiz 21 ⟨3, 0, 5⟩) (qz (d 9 0) 4 true) (fun t => t.chk.quizzes == [(21, { done := 5, bad := true })] && t.chk.detained == [det0 9 0 true]) = true
      ∧ after_ (.detentionQuiz 21 ⟨3, 0, 5⟩) (d 9 0) (fun t => t.chk.detained == [{ det0 9 0 true with lastQuiz := 3000000000 }]) = true
      ∧ (let t := detentionOutcome (d 62 1) 21 true; t.chk.detained.map (fun (e : Detained) => (e.clean, e.fails)) = [(63, 1)])
      ∧ (let t := detentionOutcome (d 63 0) 21 true; t.chk.detained = [] ∧ pointSum t 21 = 0 ∧ isSpare t 21 = true)
      ∧ after_ (.detentionQuiz 21 ⟨3, 0, 5⟩) (qz (d 9 0) 39 true) (fun t => t.chk.detained.map (fun (e : Detained) => (e.clean, e.fails)) == [(0, 1)]) = true := by decide +kernel

def vote0 : VoteResult := { unit := [], subst := [], locate := [], ok := true }
/-- An operation of bundle 5, slot 9, at offset 64 in a vote run. -/
def voteOp0 : VoteOp := { at_ := 50000, pc := 5, slot := 2, offset := 64, rows := [], lanes := [], chk := { w := 0, q := 0, sp := .fin, f := false }, res := (0, 0) }
/-- The arbitration record of the same operation, which ran 3 cycles late. -/
def arb0 : ArbRec := { unit := 21, code := 0x24, rec0 := BitVec.ofNat 64 (2 * 2 ^ 53 + 5 * 2 ^ 43), rec1 := 0, tag := 0, lag := 3, offset := 67, orig := [], check := [] }
/-- RecoveryRunsItsSteps: a detector fault that is raised and one that is not; a vote that finds a fault transient; the acknowledgements of steps 3 and 9; the timeout at 2,000 ticks and before, and the third; steps
done, 1, 4 and 8. -/
theorem witness_recovery :
    let s := setPlc fwState 0 run0
    let r := fun (n : BitVec 8) => { recov1 with step := n, issued := 18000 }
    let at_ := fun (x : Recovery) => { setPlc s 0 { run0 with state := .recovering } with rcv := { recov0 with runs := [(0, some x)] } }
    let got := fun (t : State) => (tget none t.rcv.runs 0).map fun (x : Recovery) => (x.step.toNat, x.attempt.toNat, x.acked)
    let f : FaultEv := { code := 0x20, unit := 21, stamp := 0, rec0 := 0, rec1 := 0 }
    let g := { f with code := 0x24, rec0 := arb0.rec0 }
    let im := { image0 with report := { image0.report with reproducible := true } }
    let voting := let x := at_ { r 4 with faults := [g], vote := some { vote0 with unit := [voteOp0] } }
      { setPlc x 0 { run0 with state := .recovering, img := some im } with chk := { x.chk with arb := [arb0] } }
    (powered s = true ∧ s.clk.gated = false ∧ tget none s.rcv.runs 0 = none ∧ (getPlc s 0).drain = none ∧ stepBusy (at_ (r 3)) 0 (r 3) = false
        ∧ tblWf none (at_ (r 9)).rcv.runs = true ∧ isDetained s 21 = false ∧ tblWf 0 s.rcv.lastAck = true ∧ rivalFirst (at_ (r 4)) 0 { r 4 with faults := [f] } = false
        ∧ votes voting 0 g = true ∧ arbOf voting g = some arb0 ∧ consistent 0x24 voteOp0 = true ∧ rivalFirst voting 0 { r 4 with faults := [g] } = false)
      ∧ same (.recovery 0 (.detector 0x20 21)) s = true
      ∧ after_ (.stepExecute 0 vote0) voting (fun t => t.chk.arbCount == 1 && t.chk.suspects == 1 && t.chk.wholeCount == 0) = true
      ∧ after_ (.recovery 0 (.detector 0x20 21)) { s with rcv := { s.rcv with raised := [f] } } (fun t => got t == some (1, 0, false) && t.rcv.nextSeq == 2 && (getPlc t 0).state == .recovering
            && (getPlc t 0).drain.any (·.fault)) = true
      ∧ same (.recoveryStepAck 0) (at_ (r 3)) = true
      ∧ after_ (.recoveryStepAck 0) (at_ { r 3 with acked := true }) (fun t => got t == some (4, 0, false) && tget 0 t.rcv.lastAck 0 == 0x00010300) = true
      ∧ after_ (.recoveryStepAck 0) (at_ { r 9 with acked := true }) (fun t => got t == none && tget 0 t.rcv.lastAck 0 == 0x00010900) = true
      ∧ after_ (.recoveryStepTimeout 0) (at_ (r 3)) (fun t => got t == some (3, 1, false)) = true
      ∧ same (.recoveryStepTimeout 0) (at_ { r 3 with issued := 18001 }) = true
      ∧ after_ (.recoveryStepTimeout 0) (at_ { r 3 with attempt := 2 }) (fun t => (getPlc t 0).state == .stopped) = true
      ∧ same (.stepExecute 0 vote0) (at_ { r 3 with acked := true }) = true
      ∧ after_ (.stepExecute 0 vote0) { at_ (r 3) with rcv := { (at_ (r 3)).rcv with done := [(1, 3)] } } (fun t => got t == some (3, 0, true)) = true
      ∧ after_ (.stepExecute 0 vote0) (at_ (r 1)) (fun t => got t == some (1, 0, true) && t.rcv.done == [(1, 1)]) = true
      ∧ after_ (.stepExecute 0 vote0) (at_ (r 3)) (fun t => got t == some (3, 0, true) && (tget none t.rcv.runs 0).any fun (x : Recovery) => x.vote.isNone) = true
      ∧ after_ (.stepExecute 0 vote0) (at_ { r 4 with faults := [f] }) (fun t => t.chk.suspects == 1) = true
      ∧ after_ (.stepExecute 0 vote0) (at_ (r 8)) (fun t => (getPlc t 0).armed == some 20000 && got t == some (8, 0, true)) = true := by decide +kernel

/-- RecoveryRunsItsSteps, the host's requests: a fence of a free unit and of a core at work; a reseat onto a spare, without one, and of a tile. -/
theorem witness_requests :
    let s := fwState
    let busy := setCore (setPlc s 0 run0) 21 { sCore with run := .running }
    let spare := { s with brg := { s.brg with spares := [23] } }
    let v := fun (q u : Nat) => BitVec.ofNat 64 (q * 2 ^ 60 + u * 2 ^ 46)
    (siteOfId s 21 = some 21 ∧ siteOfId s 3042 = some 3042 ∧ plcOf s 21 = none ∧ plcOf busy 21 = some 0 ∧ isCoreKind (kindOf s 21) = true ∧ isPinned s 21 = false
        ∧ isCoreKind (kindOf s 3042) = false ∧ chooseSubstitute s none 21 = none ∧ chooseSubstitute spare none 21 = some 23 ∧ (logicalOf spare 21).getD 21 ≠ 23)
      ∧ after_ (.fenceRequest (v 9 21) 5) s (fun t => isFenced t 21 && t.rcv.result == 1 && t.rcv.lastId == 5) = true
      ∧ after_ (.fenceRequest (v 9 21) 5) busy (fun t => t.rcv.result == 3 && (tget none t.rcv.runs 0).any fun (x : Recovery) => x.cause == 4 && x.planned && x.unit == some 21) = true
      ∧ after_ (.reseat (v 10 3042) 5) s (fun t => t.rcv.result == 2 && t.rcv.refusal == 4) = true
      ∧ after_ (.reseat (v 10 21) 5) s (fun t => t.rcv.result == 2 && t.rcv.refusal == 3) = true
      ∧ logicalOf s 21 = some 21 ∧ logicalOf spare 23 = none ∧ after_ (.reseat (v 10 23) 5) spare (fun t => t.rcv.result == 1 && t.brg.seat == []) = true
      ∧ after_ (.reseat (v 10 21) 5) spare (fun t => t.rcv.result == 1 && t.brg.seat == [(21, 23)] && t.brg.waiting == [21]) = true := by decide +kernel

/-! ## Command blocks -/
/-- The bits of a field. -/
theorem testBit_bits (x h l i : Nat) : (bits x h l).testBit i = (decide (i < h + 1 - l) && x.testBit (l + i)) := by
  unfold bits
  simp [Nat.testBit_mod_two_pow, Nat.testBit_shiftRight]

/-- A block with a tag in bytes 32 to 47. -/
def withTag (b : BitVec 4096) (t : Nat) : BitVec 4096 := BitVec.ofNat 4096 (b.toNat ||| (t % 2 ^ 128) <<< 256)

set_option exponentiation.threshold 4096 in
theorem withTag_toNat (b : BitVec 4096) (t : Nat) : (withTag b t).toNat = b.toNat ||| (t % 2 ^ 128) <<< 256 := by
  unfold withTag
  rw [BitVec.toNat_ofNat, Nat.mod_eq_of_lt]
  refine Nat.or_lt_two_pow b.isLt ?_
  rw [Nat.shiftLeft_eq]
  calc t % 2 ^ 128 * 2 ^ 256 < 2 ^ 128 * 2 ^ 256 := Nat.mul_lt_mul_of_pos_right (Nat.mod_lt _ (by decide)) (by decide)
    _ ≤ 2 ^ 4096 := by rw [← Nat.pow_add]; exact Nat.pow_le_pow_right (by decide) (by decide)

theorem testBit_withTag (b : BitVec 4096) (t i : Nat) (h : i < 256 ∨ 384 ≤ i) : (withTag b t).toNat.testBit i = b.toNat.testBit i := by
  rw [withTag_toNat, Nat.testBit_or, Nat.testBit_shiftLeft, Nat.testBit_mod_two_pow]
  rcases h with h | h <;> simp <;> omega

theorem blk_withTag (b : BitVec 4096) (t hi lo : Nat) (h : hi < 32 ∨ 48 ≤ lo) : blk (withTag b t) hi lo = blk b hi lo := by
  refine Nat.eq_of_testBit_eq fun i => ?_
  simp only [blk, testBit_bits]
  by_cases hi' : i < 8 * hi + 7 + 1 - 8 * lo
  · rw [testBit_withTag b t _ (by omega)]
  · simp [hi']

theorem shift_withTag (b : BitVec 4096) (t n : Nat) (h : 48 ≤ n) : (withTag b t).toNat >>> (8 * n) = b.toNat >>> (8 * n) := by
  refine Nat.eq_of_testBit_eq fun i => ?_
  simp only [Nat.testBit_shiftRight]
  exact testBit_withTag b t _ (by omega)

theorem tag_withTag (b : BitVec 4096) (t : Nat) (h : blk b 47 32 = 0) (ht : t < 2 ^ 128) : blk (withTag b t) 47 32 = t := by
  refine Nat.eq_of_testBit_eq fun i => ?_
  have h0 := congrArg (·.testBit i) h
  simp only [blk, testBit_bits, Nat.zero_testBit] at h0
  simp only [blk, testBit_bits, withTag_toNat, Nat.testBit_or, Nat.testBit_shiftLeft, Nat.testBit_mod_two_pow]
  by_cases hi : i < 128
  · simp_all
  · have : t.testBit i = false := Nat.testBit_lt_two_pow (Nat.lt_of_lt_of_le ht (Nat.pow_le_pow_right (by decide) (by omega)))
    first | (simp_all; done) | (simp_all; omega)

/-- A block with the tag that a key gives it: R830's tag does not reach the tag's own bytes. -/
theorem tagOf_withTag (k : BitVec 256) (b : BitVec 4096) (t : Nat) : tagOf k (withTag b t) = tagOf k b := by
  unfold tagOf
  have e : ∀ l : List Nat, (∀ i ∈ l, i < 4 ∨ 6 ≤ i) →
      l.map (fun i => BitVec.ofNat 64 (blk (withTag b t) (8 * i + 7) (8 * i))) = l.map fun i => BitVec.ofNat 64 (blk b (8 * i + 7) (8 * i)) :=
    fun l hl => List.map_congr_left fun i hi => by rw [blk_withTag b t _ _ (by have := hl i hi; omega)]
  simp only [← List.map_take, ← List.map_drop]
  rw [e _ (by decide), e _ (by decide)]

theorem formatOk_withTag (s : State) (b : BitVec 4096) (t : Nat) : formatOk s (withTag b t) = formatOk s b := by
  simp only [formatOk, bodyOk, blkOp, blkLen]
  simp (disch := omega) only [blk_withTag, shift_withTag]
  rfl

/-- The five checks of R831 pass. -/
def passes (s : State) (op : Nat) (b : BitVec 4096) : Prop :=
  blkOp b = op ∧ blk b 1 1 = 1 ∧ formatOk s b = true ∧ blk b 31 16 = s.fuses.moduleId.toNat
    ∧ (∃ k, s.sec.key = some k ∧ tagOf k b = blk b 47 32) ∧ s.sec.counter < blkCounter b
    ∧ (stateOk s op && (op != 1 || transitionOk s (blk b 48 48))) = true

/-- A block that passes but for its tag has one that makes it pass, with the same body. -/
theorem passes_withTag (s : State) (op : Nat) (b : BitVec 4096) (k : BitVec 256) (hk : s.sec.key = some k) (h0 : blk b 47 32 = 0)
    (h : blkOp b = op ∧ blk b 1 1 = 1 ∧ formatOk s b = true ∧ blk b 31 16 = s.fuses.moduleId.toNat ∧ s.sec.counter < blkCounter b
      ∧ (stateOk s op && (op != 1 || transitionOk s (blk b 48 48))) = true) :
    ∃ c, passes s op c ∧ ∀ hi lo, 48 ≤ lo → blk c hi lo = blk b hi lo := by
  refine ⟨withTag b (tagOf k b), ?_, fun hi lo hl => blk_withTag b _ hi lo (Or.inr hl)⟩
  have ht : tagOf k b < 2 ^ 128 := Nat.mod_lt _ (by decide)
  unfold passes blkOp blkCounter at *
  rw [formatOk_withTag, tag_withTag b _ h0 ht]
  simp (disch := omega) only [blk_withTag]
  exact ⟨h.1, h.2.1, h.2.2.1, h.2.2.2.1, ⟨k, hk, tagOf_withTag k b _⟩, h.2.2.2.2⟩

/-- An AUTH command at the front of ring 8 of a module in service, in a life-cycle state, with this firmware staged. -/
def authState (life : Nat) : State :=
  let s := setCore (setPlc (cmdState fwState (cmd (5 * 2 ^ 56 + 7) 0)) 0 run0) 21 { sCore with run := .running, passes := [pass0] }
  { s with fuses := { s.fuses with life := BitVec.ofNat 3 life }, sec := { s.sec with counter := 8, fwStaged := some fw0, fwVerified := true }, passDir := [(5, 21)] }
/-- A block with counter 9 for module 1. -/
def block (op len body : Nat) : BitVec 4096 := BitVec.ofNat 4096 (op + 2 ^ 8 + len * 2 ^ 16 + 9 * 2 ^ 64 + 2 ^ 128 + body * 2 ^ 384)
def hpBody (n dst base credit expiry : Nat) : Nat := n * 2 ^ 48 + dst * 2 ^ 34 + 9 * 2 ^ 28 + (base * 2 ^ 48 + 7 * 2 ^ 32 + 3 * 2 ^ 20 + 0xFFF * 2 ^ 8) * 2 ^ 64 + credit * 2 ^ 128 + expiry * 2 ^ 192

/-- SecureCommandsAreChecked: blocks of the seven opcodes that pass the five checks: a transition, one without a key epoch, a key, an activation and
one of another image, a new pass and one for an ID beyond the units, raw scan, caps at both limits and below, fuses. -/
theorem witness_blocks : ∀ x ∈ ([(2, 1, block 1 1 4), (1, 1, block 1 1 2), (2, 2, block 2 32 5), (2, 3, block 3 65 77), (2, 3, block 3 65 (2 ^ 512 * 3 + 78)),
    (2, 4, block 4 32 (hpBody 6 21 120 512 30000)), (2, 4, block 4 32 (hpBody 6 12800 120 512 30000)), (3, 5, block 5 0 0), (2, 6, block 6 2 3000), (2, 6, block 6 2 5400),
    (2, 6, block 6 2 2999), (3, 7, block 7 12 (7 * 2 ^ 16 + 5 * 2 ^ 32))] : List (Nat × Nat × BitVec 4096)),
    nextOf (authState x.1) 5 = some (cmd (5 * 2 ^ 56 + 7) 0) ∧ examining (authState x.1) = true
      ∧ ∃ b, passes (authState x.1) x.2.1 b ∧ ∀ hi lo, 48 ≤ lo → blk b hi lo = blk x.2.2 hi lo := by
  intro x hx
  have h := (by decide +kernel : ∀ x ∈ ([(2, 1, block 1 1 4), (1, 1, block 1 1 2), (2, 2, block 2 32 5), (2, 3, block 3 65 77), (2, 3, block 3 65 (2 ^ 512 * 3 + 78)),
    (2, 4, block 4 32 (hpBody 6 21 120 512 30000)), (2, 4, block 4 32 (hpBody 6 12800 120 512 30000)), (3, 5, block 5 0 0), (2, 6, block 6 2 3000), (2, 6, block 6 2 5400),
    (2, 6, block 6 2 2999), (3, 7, block 7 12 (7 * 2 ^ 16 + 5 * 2 ^ 32))] : List (Nat × Nat × BitVec 4096)),
    nextOf (authState x.1) 5 = some (cmd (5 * 2 ^ 56 + 7) 0) ∧ examining (authState x.1) = true ∧ (authState x.1).sec.key = some 0 ∧ blk x.2.2 47 32 = 0
      ∧ blkOp x.2.2 = x.2.1 ∧ blk x.2.2 1 1 = 1 ∧ formatOk (authState x.1) x.2.2 = true ∧ blk x.2.2 31 16 = (authState x.1).fuses.moduleId.toNat
      ∧ (authState x.1).sec.counter < blkCounter x.2.2 ∧ (stateOk (authState x.1) x.2.1 && (x.2.1 != 1 || transitionOk (authState x.1) (blk x.2.2 48 48))) = true) x hx
  obtain ⟨h1, h2, h3, h4, h5⟩ := h
  exact ⟨h1, h2, passes_withTag _ _ _ _ h3 h4 h5⟩

/-- The rest of SecureCommandsAreChecked: what the bodies above say of passes and firmware; refusals of FORMAT and MODULE, and without a key; AUTH; the
end of the hold; a switch that may run and one that may not; an image that the checks before its digest let pass, one that fails by its revision
and one that is not read (a digest and a signature have no value here); a report in RETIRED, and what the other reports rest on. -/
theorem witness_secure :
    let s := authState 2
    let c := cmd (5 * 2 ^ 56 + 7) 0
    let h := fun (n credit : Nat) => passOf (block 4 32 (hpBody n 21 120 credit 30000))
    let own := passOf (block 4 32 (hpBody 5 23 100 512 30000))
    let ended := fun (t : State) (status reason : Nat) => t.cmds == [] && t.out.any fun (o : Out) => match o with
      | .completion 17 _ w0 w1 _ _ => bits w0.toNat 63 62 == status && bits w0.toNat 55 48 == reason && w1 == 7 | _ => false
    let hold := { s with sec := { s.sec with holdTill := some 20000 } }
    let sw := { s with cmds := [{ c with started := true }], sec := { s.sec with waiting := some (4, 3) } }
    let v := BitVec.ofNat 64 (2 ^ 63 + 8 * 2 ^ 53 + 512)
    let img := BitVec.ofNat 64 (2 ^ 63 + 8 * 2 ^ 53 + 9 * 2 ^ 36)
    let boot := { s with sec := { s.sec with fwRunning := none }, pwr := { s.pwr with state := .startup } }
    let bad := { fw1 with head := fwHead 0x42 1 2 512 }
    let fits := fun (i : FwImage) (x : State) => hdrForm i.head && 1 ≤ hdrLength i.head && 4096 + hdrLength i.head ≤ 9 * 512 && hdrRevision i.head ≤ x.fuses.revision
      && x.sec.slotFloor.toNat ≤ (hdrSlot i.head).toNat && x.sec.floor ≤ hdrSecurity i.head && hdrSlot i.head < 4
    (mayOpen s 21 (h 6 512) = true ∧ mayOpen s 21 (h 6 513) = false ∧ samePass own pass0 = true ∧ samePass (h 5 512) pass0 = false
        ∧ blk (block 3 65 77) 111 48 = fw0.measure.toNat ∧ maySwitch sw = true ∧ isUp s 3 = true ∧ s.fuses.life ≠ 4 ∧ bit s.sec.attest.toNat 63 = false ∧ bits v.toNat 61 53 = 8)
      ∧ after_ (.powerCap true (block 6 3 0)) s (fun t => ended t 1 0x27 && t.sec.result == 1 && t.sec.counter == 8 && t.sec.holdTill.isNone) = true
      ∧ after_ (.powerCap true (block 6 2 3000 + BitVec.ofNat 4096 (2 ^ 128))) s (fun t => ended t 1 0x27 && t.sec.result == 2) = true
      ∧ after_ (.powerCap true (block 6 2 3000)) { s with sec := { s.sec with key := none } } (fun t => ended t 1 0x27 && t.sec.result == 3 && t.sec.tagFails == 1
            && t.sec.holdTill == some 1020000) = true
      ∧ after_ (.auth true (block 8 0 0)) s (fun t => ended t 1 0x27 && t.sec.result == 1) = true ∧ after_ (.auth false 0) s (fun t => ended t 1 0x27) = true
      ∧ same (.auth false 0) hold = true ∧ same (.keyRotate true (block 2 32 5)) hold = true
      ∧ after_ .authHoldEnd hold (fun t => t.sec.holdTill.isNone) = true ∧ same .authHoldEnd { hold with clk := { s.clk with master := 19999 } } = true
      ∧ after_ .firmwareSwitch sw (fun t => t.sec.fwRunning == some fw0 && t.sec.floor == 2 && t.sec.slotFloor == 1 && t.sec.waiting.isNone && ended t 0 0) = true
      ∧ same .firmwareSwitch { sw with pwr := { s.pwr with phase := .startup } } = true
      ∧ fits fw1 s = true ∧ fits fw1 boot = true ∧ fits bad s = false
      ∧ after_ (.fwLoad img bad) boot (fun t => t.sec.fwRes == 4 && t.sec.fwRunning.isNone) = true
      ∧ after_ (.fwLoad img bad) s (fun t => t.sec.fwRes == 4 && t.sec.fwStaged.any (fun (f : Firmware) => f.head == bad.head && f.body == bad.body)
            && !t.sec.fwVerified && t.sec.fwRunning == some fw0) = true
      ∧ after_ (.fwLoad img { fw1 with readOk := false }) boot (fun t => t.sec.fwRes == 1) = true
      ∧ after_ (.attestReport v 5 true) { s with fuses := { s.fuses with life := 4 } } (fun t => t.out == [] && bits t.sec.attest.toNat 52 50 == 3) = true := by
  decide +kernel

/-! ## Reports and the sideband -/

/-- An entry with a sequence and a stamp. -/
def entry0 (seq stamp : Nat) : List Word := [BitVec.ofNat 64 stamp, BitVec.ofNat 64 (seq * 2 ^ 32), 0, 0, 0, 0, 0, 0]
/-- A module whose management port is up, with entries in the tail, queued and held. -/
def mgtState : State :=
  { fwState with
    sbd := { sideband0 with synced := true, cfg := [BitVec.ofNat 64 (2 ^ 63 + 24 * 2 ^ 48), 0x0A000001, 0, 0, 0, BitVec.ofNat 64 (623 * 2 ^ 48)] }
    rpt := { report0 with tail := [entry0 16387 70, entry0 4 80], queue := [entry0 3 100, entry0 4 110], perGram := 2, flush := 1, card := [(5, entry0 5 60)], route := 1,
                          collect0 := BitVec.ofNat 64 (2 ^ 63) } }
/-- ReportsAndSidebandAnswer: entries persisted into their slot; a datagram by number, by age, and one that is not due; route, index and defect-map
writes. -/
theorem witness_reports :
    let s := mgtState
    let at_ := fun (n : Nat) (m : Tick) => { s with clk := { s.clk with master := m }, rpt := { s.rpt with queue := s.rpt.queue.take n } }
    let w := fun (n : Nat) => BitVec.ofNat 64 n
    let ret := { s with fuses := { s.fuses with life := 3 }, rpt := { s.rpt with fdm := [21] } }
    (mgtUp s = true ∧ powered s = true ∧ s.sec.fwRunning.isSome = true ∧ heldEntry s 5 = some (entry0 5 60) ∧ heldEntry s 16389 = none)
      ∧ after_ (.reportPersist 1) s (fun t => t.rpt.tail == [entry0 4 80] && tget [] t.rpt.card 3 == entry0 16387 70 && tget [] t.rpt.card 5 == entry0 5 60 && t.rpt.stamp == 70) = true
      ∧ after_ (.reportPersist 64) s (fun t => t.rpt.tail == [] && tget [] t.rpt.card 4 == entry0 4 80) = true
      ∧ after_ .datagram (at_ 2 200) (fun t => t.rpt.queue == [] && t.rpt.sent == 1 && t.rpt.lastGram == some 200
            && t.out == [.datagram [w (0x53565243 * 2 ^ 32 + 2 ^ 24 + 2 * 2 ^ 16), 1, 3, 0] [entry0 3 100, entry0 4 110]]) = true
      ∧ after_ .datagram (at_ 1 100100) (fun t => t.out.length == 1) = true ∧ same .datagram (at_ 1 100099) = true ∧ same .datagram (at_ 0 100100) = true
      ∧ same .datagram { at_ 2 200 with rpt := { s.rpt with lastGram := some 100 } } = true ∧ same .datagram { s with sbd := { s.sbd with synced := false } } = true
      ∧ after_ .managementRouteDown s (fun t => !t.sbd.synced) = true ∧ after_ .managementRouteUp s (fun t => t.sbd.synced) = true
      ∧ after_ (.rptRoute (w (100 * 65536 + 16 * 256 + 2))) s (fun t => t.rpt.route == 2 && t.rpt.perGram == 16 && t.rpt.flush == 100 && t.rpt.queue.length == 2) = true
      ∧ after_ (.rptRoute (w (65536 + 256))) s (fun t => t.rpt.route == 0 && t.rpt.queue == [] && t.rpt.losses == 2) = true
      ∧ (∀ v ∈ [65536 + 256 + 3, 65536 + 1, 65536 + 17 * 256, 101 * 65536 + 256], same (.rptRoute (w v)) s = true)
      ∧ after_ (.rptRdidx (w (5 * 2 ^ 32))) s (fun t => t.rpt.rdRes == 1 && t.rpt.rdData == entry0 5 60) = true
      ∧ after_ (.rptRdidx (w (16389 * 2 ^ 32))) s (fun t => t.rpt.rdRes == 2 && t.rpt.rdData == List.replicate 8 0) = true
      ∧ after_ (.tstFdmclr (w (2 ^ 63 + 1))) ret (fun t => t.exm.fdmRes == 1 && t.rpt.fdm == []) = true
      ∧ after_ (.tstFdmclr (w (2 ^ 63 + 2))) ret (fun t => t.exm.fdmRes == 3 && t.rpt.fdm == [21]) = true
      ∧ after_ (.tstFdmclr (w (2 ^ 63 + 1))) s (fun t => t.exm.fdmRes == 2) = true := by decide +kernel

/-- ReportsAndSidebandAnswer: the two-wire bus, the management port, CONTROL packets to the ring engine of port 3, and a table descriptor. -/
theorem witness_sideband :
    let s := mgtState
    let cap := { s with sbd := { s.sbd with pointer := 0x2028 } }
    let sv := fun (kind n first : Nat) => BitVec.ofNat 128 (0x53565251 * 2 ^ 96 + kind * 2 ^ 88 + n * 2 ^ 80 + first)
    let pkt := fun (op : Nat) (rows : List PRow) => { pk0 12803 9 (op * 2 ^ 124 + 0x2028 * 2 ^ 86 + 6 * 2 ^ 62) rows with injTime := 20000, dstSite := spurSite 3, pos := spurSite 3, toPort := some 3 }
    let ctl := fun (k : Packet) => { s with fab := { s.fab with tab0 := { tables0 with written := true, ports := 8 }, flight := [k], eps := [(12803, { endpoint0 with ctxs := [ctx0 21 7 0] })] } }
    let tab := { s with tiles := [(0, { tile0 with tables := [(2, { tblDesc0 with hold := 16 })] })] }
    (bits (s.sbd.cfg.getD 5 0).toNat 63 48 ≠ 0 ∧ accepts (ctl (pkt 1 [])) (pkt 1 []) = true ∧ s.fuses.life ≠ 4 ∧ isFenced tab (tileSite 0) = false
        ∧ tblWf tblDesc0 (getTile tab 0).tables = true ∧ tblWf tile0 tab.tiles = true ∧ tableOk tab (2 ^ 63 + 320) 16 = true ∧ tableOk tab (2 ^ 63 + 67108864 - 524288 - 8) 16 = false)
      ∧ after_ (.setPointer 0x2028 .good) s (fun t => t.sbd.pointer == 0x2028 && t.sbd.status == 0 && t.out == []) = true
      ∧ after_ (.setPointer 0x2029 .good) s (fun t => t.sbd.pointer == 0 && t.sbd.status == 1 && t.out == [.busNak]) = true
      ∧ after_ (.setPointer 0x2028 .bad) s (fun t => t == putOut s .busNak) = true
      ∧ after_ (.readWord .absent) s (fun t => t.out == [.bus 8 1] && t.sbd.pointer == 8 && t.sbd.status == 0) = true
      ∧ after_ (.writeWord 3000 .good) cap (fun t => t.chk.cap == 3000 && t.sbd.pointer == 0x2030 && t.out == []) = true
      ∧ after_ (.writeWord 2999 .good) cap (fun t => t.chk == s.chk && t.sbd.pointer == 0x2028 && t.out == [.busNak] && t.sbd.status != 0) = true
      ∧ after_ .readStatus { s with sbd := { s.sbd with status := 5 } } (fun t => t.out == [.bus 1 5]) = true
      ∧ after_ .readWakeSource { s with pwr := { s.pwr with wakeSrc := .watchdog } } (fun t => t.out == [.bus 1 4]) = true
      ∧ after_ (.managementFrame (.echo true)) s (fun t => t.out == [.mgtReply (.echo true)]) = true
      ∧ after_ (.managementFrame .other) s (fun t => t.out == [] && t.sbd.dropped == 1) = true
      ∧ after_ (.readService (sv 1 1 0)) s (fun t => t.out == [.service 0 0 [1]] && t.sbd.lastRead == some 20000) = true
      ∧ after_ (.readService (sv 2 1 5)) s (fun t => t.out == [.service 0 0 (entry0 5 60)]) = true
      ∧ after_ (.readService (sv 2 1 6)) s (fun t => t.out == [.service 6 0 (List.replicate 8 0)]) = true
      ∧ after_ (.readService (sv 1 17 0)) s (fun t => t.out == [] && t.sbd.dropped == 1) = true
      ∧ after_ (.readService (sv 1 1 0)) { s with sbd := { s.sbd with lastRead := some 10001 } } (fun t => t.out == [] && t.sbd.dropped == 1) = true
      ∧ after_ (.controlRead 0 clean) (ctl (pkt 1 [])) (fun t => t.out.head? == some (.reply 3 6 0 [BitVec.ofNat 64 (5400 * 2 ^ 32 + 5400)])) = true
      ∧ after_ (.controlWrite 0 clean) (ctl (pkt 2 [prow 3000])) (fun t => t.out.head? == some (.reply 3 6 0 []) && t.chk.cap == 3000) = true
      ∧ after_ (.controlWrite 0 clean) (ctl (pkt 2 [])) (fun t => t.out.head? == some (.reply 3 6 4 []) && t.chk == s.chk) = true
      ∧ after_ (.hbmTbl 0 2 true 9) tab (fun t => (tget tblDesc0 (getTile t 0).tables 2) == { tblDesc0 with hold := 9 }) = true
      ∧ same (.hbmTbl 0 2 true (BitVec.ofNat 64 (2 ^ 27))) tab = true
      ∧ after_ (.hbmTbl 0 2 false (BitVec.ofNat 64 (2 ^ 63 + 320))) tab (fun t => (tget tblDesc0 (getTile t 0).tables 2) == { w0 := BitVec.ofNat 64 (2 ^ 63 + 320), w1 := 16, hold := 16 }) = true
      ∧ same (.hbmTbl 0 2 false (BitVec.ofNat 64 (2 ^ 63 + 67108864 - 524288 - 8))) tab = true := by decide +kernel

end Sys2Proof.Tests
end

section
/-! SUPPORT. Changing the cores of a placement: what each core reads afterwards, and what the rest of the state keeps. -/

namespace Sys2Proof.Laws

open Sys2Proof Sys2Proof.Machine

/-! ## Several entries of a table changed -/

/-- A listed value stands in the table. -/
theorem mem_of_tget_ne {α : Type} {d : α} {t : Tbl α} {k : Nat} (h : tget d t k ≠ d) : (k, tget d t k) ∈ t := by
  induction t with
  | nil => exact absurd rfl h
  | cons e t ih =>
    obtain ⟨k', v⟩ := e
    by_cases hk : k' = k
    · simp [tget, hk]
    · simp only [tget, hk, if_false] at h ⊢
      exact List.mem_cons_of_mem _ (ih h)

/-- Every key of a table in canonical form under a bound is above it. -/
theorem lt_of_mem_tblWfFrom {α : Type} [DecidableEq α] {d : α} {t : Tbl α} {b : Nat} (w : tblWfFrom d (some b) t = true) :
    ∀ e ∈ t, b < e.1 := by
  induction t generalizing b with
  | nil => simp
  | cons x t ih =>
    obtain ⟨k, v⟩ := x
    simp only [tblWfFrom, Bool.and_eq_true, decide_eq_true_eq] at w
    obtain ⟨⟨hbk, -⟩, ht⟩ := w
    intro e he
    rcases List.mem_cons.1 he with rfl | he
    · exact hbk
    · exact Nat.lt_trans hbk (ih ht e he)

/-- A table in canonical form lists each key once, in rising order. -/
theorem keys_rising {α : Type} [DecidableEq α] {d : α} {t : Tbl α} (w : tblWf d t = true) : t.Pairwise fun a b => a.1 < b.1 := by
  induction t with
  | nil => exact .nil
  | cons e t ih =>
    obtain ⟨k, v⟩ := e
    have ht : tblWfFrom d (some k) t = true := by
      simp only [tblWf, tblWfFrom, Bool.and_eq_true] at w
      exact w.2
    exact .cons (lt_of_mem_tblWfFrom ht) (ih (tblWfFrom_none d t k ht))

/-- What stands in a table in canonical form is what its key reads. -/
theorem tget_of_mem {α : Type} [DecidableEq α] {d : α} {t : Tbl α} (w : tblWf d t = true) {e : Nat × α} (h : e ∈ t) :
    tget d t e.1 = e.2 := by
  have hs := keys_rising w
  clear w
  induction t with
  | nil => cases h
  | cons x t ih =>
    obtain ⟨hx, ht⟩ := List.pairwise_cons.1 hs
    rcases List.mem_cons.1 h with rfl | h
    · simp [tget]
    · simp only [tget, Nat.ne_of_lt (hx e h), if_false]
      exact ih h ht

/-- Changing one entry of a table in canonical form, read at any key. -/
theorem tget_tmod {α : Type} [DecidableEq α] {d : α} {t : Tbl α} (w : tblWf d t = true) (k : Nat) (f : α → α) (j : Nat) :
    tget d (tmod d t k f) j = if j = k then f (tget d t j) else tget d t j := by
  split
  · next h => subst h; exact tget_tset d t j _ w
  · next h => exact tget_tset_other d t _ (Ne.symm h)

/-- Changing the entries of several keys changes each of them once. -/
theorem tget_foldl_tmod {α : Type} [DecidableEq α] {d : α} {t : Tbl α} (w : tblWf d t = true) {l : List Nat} (nd : l.Nodup)
    (f : α → α) (j : Nat) :
    tget d (l.foldl (fun t k => tmod d t k f) t) j = if j ∈ l then f (tget d t j) else tget d t j := by
  induction l generalizing t with
  | nil => simp
  | cons k l ih =>
    obtain ⟨hk, nd⟩ := List.nodup_cons.1 nd
    rw [List.foldl_cons, ih (tmod_wf d t k f w) nd, tget_tmod w]
    by_cases h : j = k
    · subst h; simp [hk]
    · simp [h]

/-! ## The cores of a placement -/

theorem mem_coresOf {s : State} (w : tblWf core0 s.cores = true) {p u : Nat} : u ∈ coresOf s p ↔ plcOf s u = some p := by
  unfold coresOf plcOf getCore
  rw [List.mem_filterMap]
  constructor
  · rintro ⟨e, he, h⟩
    obtain ⟨hp, hu⟩ := Option.ite_none_right_eq_some.1 h
    cases hu
    rw [tget_of_mem w he, hp]
  · intro h
    have hne : tget core0 s.cores u ≠ core0 := fun e => by rw [e] at h; cases h
    exact ⟨_, mem_of_tget_ne hne, if_pos h⟩

theorem coresOf_nodup {s : State} (w : tblWf core0 s.cores = true) (p : Nat) : (coresOf s p).Nodup := by
  refine (List.Pairwise.filterMap _ ?_ (keys_rising w)).imp fun h => Nat.ne_of_lt h
  intro a b hab x hx y hy
  cases (Option.ite_none_right_eq_some.1 hx).2
  cases (Option.ite_none_right_eq_some.1 hy).2
  exact hab

/-- Changing every core of a placement and nothing of the others' (whatever else each change writes): each core of it is changed once. -/
theorem getCore_foldl_coresOf {s : State} (w : tblWf core0 s.cores = true) (p : Nat) {g : State → Nat → State} {f : Core → Core}
    (hg : ∀ t u, (g t u).cores = tmod core0 t.cores u f) (u : Nat) :
    getCore ((coresOf s p).foldl g s) u = if plcOf s u = some p then f (getCore s u) else getCore s u := by
  have hc := List.foldl_hom State.cores (l := coresOf s p) (init := s) (g₁ := g) (g₂ := fun t k => tmod core0 t k f) fun t u => (hg t u).symm
  unfold getCore
  rw [← hc, tget_foldl_tmod w (coresOf_nodup w p)]
  simp only [mem_coresOf w]

theorem getCore_modCores {s : State} (w : tblWf core0 s.cores = true) (p : Nat) (f : Core → Core) (u : Nat) :
    getCore (modCores s p f) u = if plcOf s u = some p then f (getCore s u) else getCore s u :=
  getCore_foldl_coresOf w p (fun _ _ => rfl) u

/-- Changing the cores of a placement changes no other part of the state and keeps the table's canonical form. -/
theorem modCores_changes (s : State) (p : Nat) (f : Core → Core) :
    ∃ cs, modCores s p f = { s with cores := cs } ∧ (tblWf core0 s.cores = true → tblWf core0 cs = true) := by
  refine List.foldlRecOn (motive := fun t => ∃ cs, t = { s with cores := cs } ∧ (tblWf core0 s.cores = true → tblWf core0 cs = true))
    (coresOf s p) _ ⟨s.cores, rfl, id⟩ ?_
  rintro t ⟨cs, rfl, hw⟩ u -
  exact ⟨_, rfl, fun w => tset_wf core0 cs _ _ (hw w)⟩

@[simp] theorem modCores_clk (s : State) (p : Nat) (f : Core → Core) : (modCores s p f).clk = s.clk := by
  obtain ⟨cs, h, -⟩ := modCores_changes s p f
  rw [h]

theorem modCores_wf {s : State} (w : tblWf core0 s.cores = true) (p : Nat) (f : Core → Core) :
    tblWf core0 (modCores s p f).cores = true := by
  obtain ⟨cs, h, hw⟩ := modCores_changes s p f
  rw [h]
  exact hw w

/-- The cores of a placement changed a second time, after a first change that keeps them its cores. -/
theorem getCore_modCores_modCores {s t : State} (w : tblWf core0 s.cores = true) {p u : Nat} (h : plcOf s u = some p) {f : Core → Core}
    (hf : (f (getCore s u)).plc = (getCore s u).plc) (ht : t.cores = (modCores s p f).cores) (g : Core → Core) :
    getCore (modCores t p g) u = g (f (getCore s u)) := by
  have hc : getCore t u = f (getCore s u) := by
    rw [getCore, ht]
    exact (getCore_modCores w p f u).trans (if_pos h)
  have hp : plcOf t u = some p := by rw [plcOf, hc, hf]; exact h
  rw [getCore_modCores (ht ▸ modCores_wf w p f), if_pos hp, hc]

/-! ## One placement -/

theorem getPlc_setPlc_self {s : State} {p : Nat} {x : Placement} (h : x ≠ plc0) : getPlc (setPlc s p x) p = x :=
  tget_tset_self plc0 s.plcs p h

theorem getPlc_setPlc_of_wf {s : State} (w : tblWf plc0 s.plcs = true) (p : Nat) (x : Placement) : getPlc (setPlc s p x) p = x :=
  tget_tset plc0 s.plcs p x w

end Sys2Proof.Laws
end

section
/-! SUPPORT. Commands of ring 8 (R564, R572, R687): which one begins, and what its completion says. -/

namespace Sys2Proof.Laws

open Sys2Proof Sys2Proof.Machine

/-- What the first word of a completion gives back as its status and its reason (R564). -/
theorem bits_completionWord {status phase reason ring index : Nat} (hs : status < 4) (hp : phase < 2) (hr : reason < 256)
    (hg : ring < 256) (hi : index < 2 ^ 32) :
    let w : Word := BitVec.ofNat 64 (fields [(status, 62), (phase, 61), (reason, 48), (ring, 40), (index, 0)])
    bits w.toNat 63 62 = status ∧ bits w.toNat 55 48 = reason := by
  simp only [fields, List.foldl_cons, List.foldl_nil, bits, BitVec.toNat_ofNat, Nat.shiftRight_eq_div_pow]
  constructor <;> omega

theorem phaseBit_lt (r : Ring) : phaseBit r < 2 := Nat.mod_lt _ (by decide)

/-- A command has completed with a status and a reason, and nothing but the commands, ring 17's index and what leaves the module differs. -/
def CommandDone (s t : State) (c : Cmd) (status reason : Nat) : Prop :=
  t.cmds = s.cmds.filter (fun x => x.index != c.index)
    ∧ (∃ k w, t.out = s.out ++ [.completion 17 k w (BitVec.ofNat 64 (cmdJob c)) 0 s.clk.master]
        ∧ bits w.toNat 63 62 = status ∧ bits w.toNat 55 48 = reason)
    ∧ { t with cmds := s.cmds, out := s.out, rings := s.rings } = s

theorem endCmd_done (s : State) (c : Cmd) {status reason : Nat} (hs : status < 4) (hr : reason < 256) :
    CommandDone s (endCmd s c status reason) c status reason :=
  ⟨rfl, ⟨_, _, rfl, bits_completionWord hs (phaseBit_lt _) hr (by decide) c.index.isLt⟩, rfl⟩

/-- The command whose turn it is: what stands before it in ring 8 is of operation 1 or 5 and in progress (R687). -/
theorem nextCmd_spec {s : State} {c : Cmd} (h : nextCmd s = some c) :
    ∃ before after, s.cmds = before ++ c :: after ∧ ∀ x ∈ before, cmdOp x = 1 ∨ cmdOp x = 5 := by
  unfold nextCmd at h
  split at h
  · next d hf =>
    split at h
    · cases h
    · cases h
      obtain ⟨-, before, after, hl, hb⟩ := List.find?_eq_some_iff_append.1 hf
      refine ⟨before, after, hl, fun x hx => ?_⟩
      have := hb x hx
      simp only [Bool.not_not, Bool.and_eq_true, Bool.or_eq_true, beq_iff_eq] at this
      exact this.2
  · cases h

theorem nextOf_spec {s : State} {op : Nat} {c : Cmd} (h : nextOf s op = some c) : nextCmd s = some c ∧ cmdOp c = op := by
  unfold nextOf at h
  split at h
  · next d hd =>
    obtain ⟨hop, hc⟩ := Option.ite_none_right_eq_some.1 h
    cases hc
    exact ⟨hd, hop.1⟩
  · cases h

/-- A command of another operation than 1 and 5 that has just begun is the one in progress of its operation and placement. -/
theorem begunFor_beginCmd {s t : State} {op : Nat} {c : Cmd} (h : nextOf s op = some c) (h1 : op ≠ 1) (h5 : op ≠ 5)
    (ht : t.cmds = (beginCmd s c).cmds) : begunFor t op (bits (cmdWord c 0) 55 53) = some { c with started := true } := by
  obtain ⟨hn, hop⟩ := nextOf_spec h
  obtain ⟨before, after, hl, hb⟩ := nextCmd_spec hn
  have hbegin : ∀ x : Cmd, cmdOp (if x.index = c.index then { x with started := true } else x) = cmdOp x := fun x => by split <;> rfl
  unfold begunFor
  simp only [ht, beginCmd, List.find?_map]
  refine Option.map_eq_some_iff.2 ⟨c, List.find?_eq_some_iff_append.2 ⟨?_, before, after, hl, fun x hx => ?_⟩, if_pos rfl⟩
  · simpa using ⟨hop, rfl⟩
  · have hx : cmdOp x ≠ op := by rcases hb x hx with e | e <;> omega
    simp [hbegin, hx]

end Sys2Proof.Laws
end

section
/-! SUPPORT. Loading, starting and unloading a placement (R92, R93, R276, R325, R437, R572), part by part. -/

namespace Sys2Proof.Laws

open Sys2Proof Sys2Proof.Machine

/-! ## LOAD -/

/-- Every code of the checks of a load is one of R93's. -/
theorem loadCode_le {s : State} {p : Nat} {im : Image} {code : Nat} (h : loadCode s p im = some code) : code ≤ 0x10 := by
  obtain ⟨e, he, rfl⟩ := Option.map_eq_some_iff.1 h
  have hm : e.1 ∈ (loadChecks s p im).map (·.1) := List.mem_map_of_mem (List.mem_of_find?_eq_some he)
  have hc : (loadChecks s p im).map (·.1) = List.range' 1 16 := rfl
  rw [hc, List.mem_range'_1] at hm
  omega

/-- A core that belongs to a placement and stands as the loader leaves it: stopped, its registers and its results empty (R325). -/
def LoadedFor (p : Nat) (c : Core) : Prop :=
  c.plc.map (·.val) = some p ∧ c.run = .stopped ∧ c.gpr = [] ∧ c.vec = [] ∧ c.counters = [] ∧ c.pend = []

theorem LoadedFor.ne_core0 {p : Nat} {c : Core} (h : LoadedFor p c) : c ≠ core0 := by
  rintro rfl
  cases h.1

/-- What each part of a load keeps: the seating, time, the commands, what has left the module, and every core that is loaded already. -/
structure LoadKeeps (p : Nat) (s t : State) : Prop where
  fuses : t.fuses = s.fuses
  brg : t.brg = s.brg
  chk : t.chk = s.chk
  clk : t.clk = s.clk
  cmds : t.cmds = s.cmds
  out : t.out = s.out
  loaded : ∀ v, LoadedFor p (getCore s v) → LoadedFor p (getCore t v)

theorem LoadKeeps.refl (p : Nat) (s : State) : LoadKeeps p s s := ⟨rfl, rfl, rfl, rfl, rfl, rfl, fun _ h => h⟩

theorem LoadKeeps.trans {p : Nat} {s t r : State} (h : LoadKeeps p s t) (k : LoadKeeps p t r) : LoadKeeps p s r :=
  ⟨k.fuses.trans h.fuses, k.brg.trans h.brg, k.chk.trans h.chk, k.clk.trans h.clk, k.cmds.trans h.cmds, k.out.trans h.out,
    fun v hv => k.loaded v (h.loaded v hv)⟩

theorem LoadKeeps.foldl {α : Type} {p : Nat} {f : State → α → State} (h : ∀ t x, LoadKeeps p t (f t x)) (s : State) (l : List α) :
    LoadKeeps p s (l.foldl f s) :=
  List.foldlRecOn (motive := LoadKeeps p s) l f (.refl p s) fun t ht x _ => ht.trans (h t x)

/-- Writing a core leaves the loaded cores loaded, where it writes a loaded core over one. -/
theorem LoadKeeps.setCore {p : Nat} (s : State) (u : Nat) (c : Core) (h : LoadedFor p (getCore s u) → LoadedFor p c) :
    LoadKeeps p s (setCore s u c) := by
  refine ⟨rfl, rfl, rfl, rfl, rfl, rfl, fun v hv => ?_⟩
  by_cases e : v = u
  · subst e
    rw [getCore_setCore_self (h hv).ne_core0]
    exact h hv
  · rwa [getCore_setCore_ne c e]

theorem LoadKeeps.modCore {p : Nat} (s : State) (u : Nat) {f : Core → Core} (h : ∀ c, LoadedFor p c → LoadedFor p (f c)) :
    LoadKeeps p s (modCore s u f) := .setCore s u _ (h _)

theorem physOf_of_loadKeeps {p : Nat} {s t : State} (h : LoadKeeps p s t) (l : Nat) : physOf t l = physOf s l := by
  have hk : ∀ u, kindOf t u = kindOf s u := fun u => by unfold kindOf; rw [h.fuses]
  have hf : ∀ u, isFenced t u = isFenced s u := fun u => by unfold isFenced unitState; rw [h.brg]
  unfold physOf seatOf isSpare
  simp only [h.brg, h.chk, hk, hf]

theorem loadedFor_loadedCore (s : State) {p : Nat} (hp : p < 8) (strict : Bool) (i : ImgUnit) (old : Core) (u : Nat) :
    LoadedFor p (loadedCore s p strict i old u) := by
  refine ⟨?_, rfl, rfl, rfl, rfl, rfl⟩
  show some (p % 8) = some p
  rw [Nat.mod_eq_of_lt hp]

theorem loadUnit_spec (s : State) {p : Nat} (hp : p < 8) (strict : Bool) (i : ImgUnit) :
    LoadKeeps p s (loadUnit s p strict i) ∧ LoadedFor p (getCore (loadUnit s p strict i) (physOf s i.logical.val)) := by
  let u := physOf s i.logical.val
  let s1 := fillRows s u (i.rows.map fun r => (r.row, r.data))
  let c := loadedCore s1 p strict i (getCore s1 u) u
  have hc : LoadedFor p c := loadedFor_loadedCore s1 hp strict i _ u
  have h1 : LoadKeeps p s s1 := ⟨rfl, rfl, rfl, rfl, rfl, rfl, fun _ h => h⟩
  have hs : LoadKeeps p s (setCore s1 u c) := h1.trans (.setCore s1 u c fun _ => hc)
  have ht : LoadKeeps p (setCore s1 u c) (loadUnit s p strict i) := by
    unfold loadUnit
    simp only
    split <;> exact ⟨rfl, rfl, rfl, rfl, rfl, rfl, fun _ h => h⟩
  refine ⟨hs.trans ht, ht.loaded u ?_⟩
  rw [getCore_setCore_self hc.ne_core0]
  exact hc

/-- Every unit that is loaded has its core loaded at the end. -/
theorem loadUnits_loaded {p : Nat} (hp : p < 8) (strict : Bool) (l : List ImgUnit) (s : State) :
    ∀ i ∈ l, LoadedFor p (getCore (l.foldl (fun t i => loadUnit t p strict i) s) (physOf s i.logical.val)) := by
  induction l generalizing s with
  | nil => simp
  | cons j l ih =>
    obtain ⟨hk, hj⟩ := loadUnit_spec s hp strict j
    intro i hi
    rcases List.mem_cons.1 hi with rfl | hi
    · exact (LoadKeeps.foldl (fun t i => (loadUnit_spec t hp strict i).1) _ l).loaded _ hj
    · rw [← physOf_of_loadKeeps hk]
      exact ih _ i hi

theorem LoadKeeps.setSw (p : Nat) (s : State) (c : Nat) (x : Switch) : LoadKeeps p s (setSw s c x) :=
  ⟨rfl, rfl, rfl, rfl, rfl, rfl, fun _ h => h⟩

theorem LoadKeeps.withSegs {p : Nat} {s t : State} (h : LoadKeeps p s t) (l : List Seg) : LoadKeeps p s { t with segs := l } :=
  h.trans ⟨rfl, rfl, rfl, rfl, rfl, rfl, fun _ h => h⟩

theorem LoadKeeps.withSched {p : Nat} {s t : State} (h : LoadKeeps p s t) (l : Tbl (BitVec 16)) : LoadKeeps p s { t with sched := l } :=
  h.trans ⟨rfl, rfl, rfl, rfl, rfl, rfl, fun _ h => h⟩

theorem bindSeg_loadKeeps (p : Nat) (s : State) (g : Seg) : LoadKeeps p s (bindSeg s g) := by
  unfold bindSeg
  refine LoadKeeps.trans (t := match g.src with
    | .port u q => modCore s u.val fun c => { c with outPorts := tput c.outPorts q.toNat (g.plc, g.id) }
    | .slot c o => setSw s c.val { getSw s c.val with out := tput (getSw s c.val).out o.toNat (g.plc, g.id) }) ?_ ?_
  · cases g.src with
    | port u q => exact .modCore s _ fun _ h => h
    | slot c o => exact .setSw p _ _ _
  · cases g.dst with
    | ring u q b n ctr => exact .modCore _ _ fun _ h => h
    | data c q => exact .setSw p _ _ _
    | token c q => exact .setSw p _ _ _

theorem loadRouters_loadKeeps (p q : Nat) (s : State) (im : Image) : LoadKeeps p s (loadRouters s q im) := by
  have queues : ∀ {α : Type} (f : State → α → Nat) (x : State → α → Switch) (t : State) (l : List α),
      LoadKeeps p t (l.foldl (fun t d => setSw t (f t d) (x t d)) t) := fun f x => .foldl fun t d => .setSw p t (f t d) (x t d)
  unfold loadRouters
  simp only
  refine .trans (.withSegs ?_ _) (.foldl (bindSeg_loadKeeps p) _ _)
  exact ((((LoadKeeps.refl p s).withSched _).trans (queues _ _ _ im.dataQ)).trans (queues _ _ _ im.tokenQ)).trans
    (queues _ _ _ im.elements)

theorem stalePeers_loadKeeps (p : Nat) (s : State) (u n : Nat) (gen : BitVec 8) : LoadKeeps p s (stalePeers s u n gen) := by
  refine LoadKeeps.foldl (fun t e => ?_) s _
  exact .modCore t e.1 fun _ h => h

theorem stalePeersOf_loadKeeps (p : Nat) (s : State) (u : Nat) : LoadKeeps p s (stalePeersOf s u) := by
  refine LoadKeeps.foldl (fun t e => ?_) s _
  split
  · exact stalePeers_loadKeeps p t u e.1 e.2.gen
  · exact .refl p t

theorem syncSends_loadKeeps (p : Nat) (s : State) (u : Nat) : LoadKeeps p s (syncSends s u) := .modCore s u fun _ h => h

/-- A load that no check refuses (R325): the placement is loaded and armed from the image, the commands and what has left the module stand,
and each unit's core belongs to the placement and is empty. -/
theorem writeLoad_spec (s : State) {p : Nat} (hp : p < 8) (strict : Bool) (im : Image) :
    let t := writeLoad s p strict im
    (getPlc t p).state = .loaded ∧ (getPlc t p).armed = some s.clk.master ∧ (getPlc t p).img = some im ∧ t.cmds = s.cmds ∧ t.out = s.out
      ∧ ∀ i ∈ im.units, LoadedFor p (getCore t (physOf s i.logical.val)) := by
  let s1 := im.units.foldl (fun t i => loadUnit t p strict i) s
  let s2 := loadRouters s1 p im
  let us := im.units.map fun i => physOf s2 i.logical.val
  let s4 := us.foldl syncSends (us.foldl stalePeersOf s2)
  have h1 : LoadKeeps p s s1 := .foldl (fun t i => (loadUnit_spec t hp strict i).1) s _
  have h4 : LoadKeeps p s1 s4 := (loadRouters_loadKeeps p p s1 im).trans
    ((LoadKeeps.foldl (stalePeersOf_loadKeeps p) s2 us).trans (.foldl (syncSends_loadKeeps p) _ us))
  have h := h1.trans h4
  have hx : getPlc (writeLoad s p strict im) p = _ := getPlc_setPlc_self fun e => by cases congrArg Placement.state e
  intro t
  rw [show getPlc t p = _ from hx]
  exact ⟨rfl, congrArg (fun k => some k.master) h.clk, rfl, h.cmds, h.out,
    fun i hi => h4.loaded _ (loadUnits_loaded hp strict im.units s i hi)⟩

theorem exec_load_of_code {s : State} {c : Cmd} {im : Image} {code : Nat} (h : nextOf s 2 = some c)
    (hc : loadCode s (bits (cmdWord c 0) 55 53) im = some code) : exec (.load im) s = .next (endCmd s c 1 code) := by
  show Host.Outcome.next (loadCmd s im) = _
  unfold loadCmd
  simp only [h, hc]

theorem exec_load_of_passes {s : State} {c : Cmd} {im : Image} (h : nextOf s 2 = some c)
    (hc : loadCode s (bits (cmdWord c 0) 55 53) im = none) :
    exec (.load im) s = .next (writeLoad (beginCmd s c) (bits (cmdWord c 0) 55 53) (bit (cmdWord c 0) 52) im) := by
  show Host.Outcome.next (loadCmd s im) = _
  unfold loadCmd
  simp only [h, hc]

/-! ## PLACEMENT_START -/

/-- A start of an armed placement in a later T tick (R325): the placement starts, and a LOAD in progress completes. -/
theorem exec_placementStart_of_armed {s : State} {p : Plc} {t0 : Tick} (ha : (getPlc s p.val).armed = some t0) (ht : t0 ≠ s.clk.master)
    (hg : s.clk.gated = false) :
    ∃ k r o, exec (.placementStart p) s = .next { startPlacement s p.val with cmds := k, rings := r, out := o } := by
  show ∃ k r o, Host.Outcome.next (startArmed s p.val) = _
  unfold startArmed
  simp only [ha, ht, hg, or_self, if_false, Bool.false_eq_true]
  split
  · exact ⟨_, _, _, rfl⟩
  · exact ⟨_, _, _, rfl⟩

theorem getPlc_startPlacement (s : State) (p : Nat) :
    let x := getPlc (startPlacement s p) p
    x.state = .running ∧ x.armed = none ∧ x.start = s.clk.master := by
  have hne : ∀ {x : Placement}, x.state = .running → x ≠ plc0 := fun h e => by rw [e] at h; cases h
  unfold startPlacement modPlc
  simp only
  rw [getPlc_setPlc_self (hne rfl)]
  refine ⟨rfl, rfl, ?_⟩
  simp [pauseDoors]

/-- A core at the start of its placement, before its hall passes and channels reopen. -/
def startedCore (at_ : Tick) (c : Core) : Core :=
  { c with run := (if c.run = .fenced then .fenced else .running), pc := c.startPc, cycle := 0, startTick := at_, lost := 0, dues := [],
           asked := c.counters, inRings := c.inRings.map fun e => (e.1, { e.2 with next := 0, counts := [], prevTarget := none }) }

/-- The core of a placement at its start: from its start bundle at cycle 0, running where it is not fenced (R325). -/
theorem getCore_startPlacement {s : State} (w : tblWf core0 s.cores = true) {p u : Nat} (h : plcOf s u = some p) :
    let c := getCore (startPlacement s p) u
    c.pc = (getCore s u).startPc ∧ c.cycle = 0 ∧ c.startTick = s.clk.master
      ∧ c.run = if (getCore s u).run = .fenced then .fenced else .running := by
  have hc : ∃ l t, getCore (startPlacement s p) u = { startedCore s.clk.master (getCore s u) with passes := l, chans := t } := by
    refine ⟨_, _, getCore_modCores_modCores w h rfl ?_ _⟩
    rfl
  obtain ⟨l, t, hlt⟩ := hc
  intro c
  rw [show c = _ from hlt]
  exact ⟨rfl, rfl, rfl, rfl⟩

/-! ## UNLOAD -/

/-- Completions that are written change the descriptors, their ring's index and what leaves the module. -/
theorem flushDescs_changes (p n : Nat) (s : State) : ∃ d r o, flushDescs s p n = { s with descs := d, rings := r, out := o } := by
  induction n generalizing s with
  | zero => exact ⟨_, _, _, rfl⟩
  | succ n ih =>
    unfold flushDescs
    split
    · exact ⟨_, _, _, rfl⟩
    · split
      · split
        · obtain ⟨d, r, o, h⟩ := ih (postCompletion _ p _ _ _ _ _ _)
          exact ⟨d, r, o, h.trans rfl⟩
        · exact ⟨_, _, _, rfl⟩
      · exact ⟨_, _, _, rfl⟩

theorem discardDescs_changes (s : State) (p reason : Nat) (all : Bool) : ∃ d r o x, discardDescs s p reason all
    = { s with descs := d, rings := r, out := o, plcs := tset plc0 s.plcs p x } := by
  unfold discardDescs
  simp only
  obtain ⟨d, r, o, h⟩ := flushDescs_changes p (getDescs s p).length _
  exact ⟨d, r, o, _, h.trans rfl⟩

theorem dropUndelivered_changes (s : State) (p : Nat) : ∃ d r o, dropUndelivered s p = { s with descs := d, rings := r, out := o } := by
  unfold dropUndelivered
  simp only
  obtain ⟨d, r, o, h⟩ := flushDescs_changes p (getDescs s p).length _
  exact ⟨d, r, o, h.trans rfl⟩

/-- One core leaves its placement, with its matrix unit and its operations. -/
def leaveCore (s : State) (u : Nat) : State := modEp (modM (modCore s u unloadedCore) u freshM) u detachOps

/-- What a placement held is released (R276, R437): its number, its segments and its cores; the commands stand. -/
theorem releasePlacement_spec {s : State} (w : tblWf core0 s.cores = true) (wp : tblWf plc0 s.plcs = true) (p : Nat) :
    let t := releasePlacement s p
    getPlc t p = plc0 ∧ t.cmds = s.cmds ∧ (∀ g ∈ t.segs, g.plc.val ≠ p) ∧ ∀ u, plcOf s u = some p → (getCore t u).plc = none := by
  have hk : ((coresOf s p).foldl leaveCore s).cmds = s.cmds ∧ ((coresOf s p).foldl leaveCore s).plcs = s.plcs :=
    List.foldlRecOn (motive := fun t : State => t.cmds = s.cmds ∧ t.plcs = s.plcs) _ leaveCore ⟨rfl, rfl⟩ fun _ h _ _ => h
  obtain ⟨hcmds, hplcs⟩ := hk
  refine ⟨getPlc_setPlc_of_wf (hplcs ▸ wp) p plc0, hcmds, fun g hg => ?_, fun u hu => ?_⟩
  · have := (List.mem_filter.1 hg).2
    simpa using this
  · have hc : getCore (releasePlacement s p) u = getCore ((coresOf s p).foldl leaveCore s) u := rfl
    rw [hc, getCore_foldl_coresOf w p (g := leaveCore) (f := unloadedCore) (fun _ _ => rfl), if_pos hu]
    rfl

/-- The end of an unload whose command is in progress (R572): what the placement held is released and the command completes. -/
theorem finishUnload_spec {s : State} (w : tblWf core0 s.cores = true) (wp : tblWf plc0 s.plcs = true) {p : Nat} {c : Cmd}
    (hb : ∀ t : State, t.cmds = s.cmds → begunFor t 3 p = some c) :
    let t := finishUnload s p
    getPlc t p = plc0 ∧ t.cmds = s.cmds.filter (fun x => x.index != c.index) ∧ (∀ g ∈ t.segs, g.plc.val ≠ p)
      ∧ ∀ u, plcOf s u = some p → (getCore t u).plc = none := by
  obtain ⟨d, r, o, x, hd⟩ := discardDescs_changes s p 0x22 true
  have hspec := releasePlacement_spec (s := discardDescs s p 0x22 true) (by rw [hd]; exact w) (by rw [hd]; exact tset_wf plc0 s.plcs p x wp) p
  obtain ⟨hplc, hcmds, hsegs, hcores⟩ := hspec
  have hcmds : (releasePlacement (discardDescs s p 0x22 true) p).cmds = s.cmds := by rw [hcmds, hd]
  have he : finishUnload s p = endCmd (releasePlacement (discardDescs s p 0x22 true) p) c 0 0 := by
    unfold finishUnload
    simp only [hb _ hcmds]
  intro t
  rw [show t = _ from he]
  refine ⟨hplc, ?_, hsegs, fun u hu => hcores u ?_⟩
  · show List.filter _ _ = _
    rw [hcmds]
  · rw [hd]; exact hu

section
variable {s : State} {c : Cmd} (h : nextOf s 3 = some c)
include h

theorem exec_unload_of_absent (hp : (getPlc s (bits (cmdWord c 0) 55 53)).state = .absent) :
    exec .unload s = .next (endCmd s c 0 0) := by
  show Host.Outcome.next (unloadCmd s) = _
  unfold unloadCmd
  simp only [h, hp]

theorem exec_unload_of_stopped (hp : (getPlc s (bits (cmdWord c 0) 55 53)).state = .stopped) :
    exec .unload s = .next (finishUnload (beginCmd s c) (bits (cmdWord c 0) 55 53)) := by
  show Host.Outcome.next (unloadCmd s) = _
  unfold unloadCmd
  simp only [h, hp]

theorem exec_unload_of_running (hp : (getPlc s (bits (cmdWord c 0) 55 53)).state = .running) :
    exec .unload s
      = .next (startContextDrain (dropUndelivered (beginCmd s c) (bits (cmdWord c 0) 55 53)) (bits (cmdWord c 0) 55 53) true) := by
  show Host.Outcome.next (unloadCmd s) = _
  unfold unloadCmd
  simp only [h, hp]

end

end Sys2Proof.Laws
end

section
/-! SUPPORT. The placements' life on the command ring. -/

namespace Sys2Proof

open Sys2Proof.Machine Sys2Proof.Laws

theorem placementNumber_lt (c : Cmd) : bits (cmdWord c 0) 55 53 < 8 := Nat.mod_lt _ (by decide)

/-- Settles O42: LOAD, PLACEMENT_START and UNLOAD by the lemma of each; the number of a placement has 3 bits, and a load's code is at most
0x10, so that a completion holds both. -/
theorem loadingStartingAndUnloading : Obligations.LoadingStartingAndUnloading := by
  unfold Obligations.LoadingStartingAndUnloading
  intro s c p done w wp
  refine ⟨fun im hn => ⟨fun code hc => ?_, fun hc => ?_⟩, fun q t0 ha ht hg => ?_, fun hn => ⟨fun hp => ?_, fun hp => ?_, fun hp => ?_⟩⟩
  · have hle := loadCode_le hc
    exact ⟨_, exec_load_of_code hn hc, endCmd_done s c (by decide) (by omega)⟩
  · obtain ⟨hstate, harmed, himg, hcmds, hout, hcores⟩ :=
      writeLoad_spec (beginCmd s c) (placementNumber_lt c) (bit (cmdWord c 0) 52) im
    exact ⟨_, exec_load_of_passes hn hc, hstate, harmed, himg, hcmds, hout, hcores⟩
  · obtain ⟨k, r, o, he⟩ := exec_placementStart_of_armed ha ht hg
    obtain ⟨hstate, harmed, hstart⟩ := getPlc_startPlacement s q.val
    refine ⟨_, he, hstate, harmed, hstart, fun u hu => ?_⟩
    have hq : plcOf s u = some q.val := by unfold plcOf; rw [hu]; rfl
    obtain ⟨hpc, hcycle, htick, hrun⟩ := getCore_startPlacement w hq
    exact ⟨hpc, hcycle, htick, fun hf => hrun.trans (if_neg hf)⟩
  · exact ⟨_, exec_unload_of_absent hn hp, endCmd_done s c (by decide) (by decide)⟩
  · have hb : ∀ t : State, t.cmds = (beginCmd s c).cmds → begunFor t 3 p = some { c with started := true } :=
      fun t => begunFor_beginCmd hn (by decide) (by decide)
    obtain ⟨hplc, hcmds, hsegs, hcores⟩ := finishUnload_spec (s := beginCmd s c) w wp hb
    refine ⟨_, exec_unload_of_stopped hn hp, hplc, fun x hx => ?_, hsegs, hcores⟩
    rw [hcmds] at hx
    simpa using (List.mem_filter.1 hx).2
  · obtain ⟨d, r, o, hd⟩ := dropUndelivered_changes (beginCmd s c) p
    refine ⟨_, _, exec_unload_of_running hn hp, congrArg Placement.drain (getPlc_setPlc_self fun e => ?_), rfl, rfl, ?_⟩
    · cases congrArg Placement.drain e
    · rw [hd]; rfl

end Sys2Proof
end

section
/-! SUPPORT. What sparse tables read after several writes and deletions, and the numbers of a range. -/

namespace Sys2Proof.Laws

open Sys2Proof Sys2Proof.Machine

/-- Writing back what a key reads leaves a table in canonical form as it was. -/
theorem tset_tget {α : Type} [DecidableEq α] {d : α} {t : Tbl α} (w : tblWf d t = true) (k : Nat) : tset d t k (tget d t k) = t := by
  unfold tblWf at w
  generalize none = b at w
  induction t generalizing b with
  | nil => simp [tset, tget, tdel]
  | cons e t ih =>
    obtain ⟨k', v⟩ := e
    simp only [tblWfFrom, Bool.and_eq_true, decide_eq_true_eq] at w
    obtain ⟨⟨-, hv⟩, ht⟩ := w
    by_cases hk : k' = k
    · simp [tset, tget, tput, hk, hv]
    · by_cases hlt : k < k'
      · simp [tset, tget, tdel, hk, hlt, tget_below d t ht (Nat.le_of_lt hlt)]
      · have ih := ih (some k') ht
        by_cases hd : tget d t k = d <;> simp only [tset, hd, if_true, if_false] at ih <;> simp [tset, tget, tdel, tput, hk, hlt, hd, ih]

theorem tget_tdel_self {α : Type} [DecidableEq α] {d : α} {t : Tbl α} (w : tblWf d t = true) (k : Nat) : tget d (tdel t k) k = d := by
  have h := tget_tset d t k d w
  rwa [tset, if_pos rfl] at h

/-- Deleting keys keeps the canonical form, and what reads the default. -/
theorem foldl_tdel_default {α : Type} [DecidableEq α] {d : α} {j : Nat} (l : List Nat) {t : Tbl α} (w : tblWf d t = true)
    (h : tget d t j = d) : tblWf d (l.foldl tdel t) = true ∧ tget d (l.foldl tdel t) j = d := by
  induction l generalizing t with
  | nil => exact ⟨w, h⟩
  | cons k l ih =>
    refine ih (tdel_wf d t none k w) ?_
    by_cases hk : k = j
    · subst hk; exact tget_tdel_self w k
    · rw [tget_tdel_other d t hk, h]

/-- A change that gives an entry a property which the default lacks. -/
theorem tget_tmod_gains {α : Type} [DecidableEq α] {d : α} {P : α → Prop} (hd : ¬ P d) {t : Tbl α} {k : Nat} {g : α → α}
    (h : P (g (tget d t k))) : P (tget d (tmod d t k g) k) := by
  unfold tmod
  rw [tget_tset_self d t k fun e => hd (e ▸ h)]
  exact h

section
variable {α β : Type} [DecidableEq α] {d : α} {P : α → Prop} (hd : ¬ P d) {f : β → α → α} (hf : ∀ b x, P x → P (f b x))
  (key : β → Nat) {k : Nat}
include hd hf

/-- Such a property stays with the entry that has it where every change keeps it. -/
theorem tget_foldl_tmod_keeps (l : List β) {t : Tbl α} (h : P (tget d t k)) :
    P (tget d (l.foldl (fun t b => tmod d t (key b) (f b)) t) k) := by
  induction l generalizing t with
  | nil => exact h
  | cons b l ih =>
    refine ih ?_
    by_cases hk : key b = k
    · subst hk; exact tget_tmod_gains hd (hf b _ h)
    · exact (tget_tset_other d t _ hk).symm ▸ h

/-- If every change brings it about, each changed entry has it. -/
theorem tget_foldl_tmod_gains (hg : ∀ b x, P (f b x)) {l : List β} {b : β} (hb : b ∈ l) (t : Tbl α) :
    P (tget d (l.foldl (fun t b => tmod d t (key b) (f b)) t) (key b)) := by
  obtain ⟨l₁, l₂, rfl⟩ := List.append_of_mem hb
  rw [List.foldl_append]
  exact tget_foldl_tmod_keeps hd hf key l₂ (tget_tmod_gains hd (hg b _))

end

theorem upFrom_eq_range' (a n : Nat) : upFrom a n = List.range' a n := by
  induction n generalizing a with
  | zero => rfl
  | succ n ih => simp [upFrom, ih, List.range'_succ]

theorem mem_upFrom {a n k : Nat} : k ∈ upFrom a n ↔ a ≤ k ∧ k < a + n := by
  rw [upFrom_eq_range', List.mem_range'_1]

end Sys2Proof.Laws
end

section
/-! SUPPORT. The units of an M-core: reading and writing them, what their row reads and the array queue change, and the events of a core
that a placement has loaded (R172, R180, R225). -/

namespace Sys2Proof.Laws

open Sys2Proof Sys2Proof.Machine

/-! ## One M-core -/

section
variable {s : State} (w : tblWf mcore0 s.mcores = true) (u : Nat)
include w

theorem getM_setM (m : MCore) : getM (setM s u m) u = m := tget_tset mcore0 s.mcores u m w

theorem setM_getM : setM s u (getM s u) = s := by
  unfold setM getM
  rw [tset_tget w]

theorem setM_wf (m : MCore) : tblWf mcore0 (setM s u m).mcores = true := tset_wf mcore0 s.mcores u m w

theorem getM_stepArray : getM (stepArray s u) u = runArray (getM s u) (getM s u).arrayQ.length := getM_setM w u _

theorem stepArray_wf : tblWf mcore0 (stepArray s u).mcores = true := setM_wf w u _

end

theorem getM_congr {s t : State} (h : t.mcores = s.mcores) (u : Nat) : getM t u = getM s u := congrArg (tget mcore0 · u) h

theorem bankOf_setBank (m : MCore) (b b' : Bool) (t : Tbl TSlot) : bankOf (setBank m b t) b' = if b' = b then t else bankOf m b' := by
  cases b <;> cases b' <;> rfl

/-! ## The array queue -/

/-- SWAP and TCLR change the queue, the mark and the banks. -/
theorem runArray_changes (n : Nat) (m : MCore) :
    ∃ q x t0 t1, runArray m n = { m with arrayQ := q, swapped := x, bank0 := t0, bank1 := t1 } := by
  induction n generalizing m with
  | zero => exact ⟨_, _, _, _, rfl⟩
  | succ n ih =>
    unfold runArray
    split
    · exact ⟨_, _, _, _, rfl⟩
    · next c rest hq =>
      split
      · obtain ⟨q, x, t0, t1, h⟩ := ih { m with arrayQ := rest, swapped := true }
        exact ⟨q, x, t0, t1, h⟩
      · split
        · dsimp only
          split
          · exact ⟨_, _, _, _, rfl⟩
          · generalize (tclrSlots c.w).foldl tdel (bankOf m (bit c.w 55)) = t
            obtain ⟨q, x, t0, t1, h⟩ := ih (setBank { m with arrayQ := rest } (bit c.w 55) t)
            refine ⟨q, x, t0, t1, h.trans ?_⟩
            cases bit c.w 55 <;> rfl
        · exact ⟨_, _, _, _, rfl⟩

/-- A slot that is EMPTY stays EMPTY, and its bank in canonical form. -/
theorem runArray_keeps_empty (n : Nat) {m : MCore} {b : Bool} {k : Nat} (w : tblWf tslot0 (bankOf m b) = true) (h : arraySlot m b k = tslot0) :
    arraySlot (runArray m n) b k = tslot0 := by
  induction n generalizing m with
  | zero => exact h
  | succ n ih =>
    unfold runArray
    split
    · exact h
    · next c rest hq =>
      split
      · exact ih w h
      · split
        · dsimp only
          split
          · exact h
          · have hm : bankOf { m with arrayQ := rest } b = bankOf m b := rfl
            by_cases hb : b = bit c.w 55
            · obtain ⟨hw, hs⟩ := foldl_tdel_default (tclrSlots c.w) w h
              refine ih ?_ ?_
              · rwa [bankOf_setBank, if_pos hb, ← hb]
              · rwa [arraySlot, bankOf_setBank, if_pos hb, ← hb]
            · refine ih ?_ ?_
              · rwa [bankOf_setBank, if_neg hb]
              · rwa [arraySlot, bankOf_setBank, if_neg hb]
        · exact h

/-! ## Row reads -/

theorem decideFence_changes (s : State) (u : Nat) (kind : Option Nat) : ∃ k, decideFence s u kind = { s with chk := k } := by
  unfold decideFence
  split <;> exact ⟨_, rfl⟩

theorem marginAction_changes (s : State) (u : Nat) (kind : Option Nat) : ∃ k, (marginAction s u kind).1 = { s with chk := k } := by
  unfold marginAction
  split
  · exact ⟨_, rfl⟩
  · split
    · exact ⟨_, rfl⟩
    · exact decideFence_changes s u kind

theorem detentionFailure_changes (s : State) (u : Nat) : ∃ k, detentionFailure s u = { s with chk := k } := by
  unfold detentionFailure
  split
  · exact ⟨_, rfl⟩
  · dsimp only
    split
    · exact ⟨_, rfl⟩
    · split
      · obtain ⟨k, h⟩ := marginAction_changes (modDetained s u fun d => { d with fails := _, clean := 0 }) u (some 9)
        exact ⟨_, by rw [h]; rfl⟩
      · exact decideFence_changes _ u _

theorem becomeSuspect_changes (s : State) (u : Nat) (kind : Option Nat) : ∃ k, becomeSuspect s u kind = { s with chk := k } := by
  obtain ⟨k, h⟩ := marginAction_changes { s with chk := { s.chk with suspects := sat16 s.chk.suspects 1 } } u kind
  unfold becomeSuspect
  dsimp only
  rw [h]
  split
  · exact ⟨_, rfl⟩
  · split
    · exact decideFence_changes _ u kind
    · exact ⟨_, rfl⟩

/-- Fault points change what checking keeps. -/
theorem addPoints_changes (s : State) (u n : Nat) (kind : Option Nat) : ∃ k, addPoints s u n kind = { s with chk := k } := by
  unfold addPoints
  split
  · exact ⟨_, rfl⟩
  · split
    · exact detentionFailure_changes s u
    · dsimp only
      split
      · exact becomeSuspect_changes _ u kind
      · exact ⟨_, rfl⟩

theorem countCorrected_changes (s : State) (u n : Nat) : ∃ cs k, countCorrected s u n = { s with cores := cs, chk := k } := by
  unfold countCorrected
  split
  · exact ⟨_, _, rfl⟩
  · obtain ⟨k, h⟩ := addPoints_changes (modCore s u fun c => { c with corrected := _ }) u ((sat32 (getCore s u).corrected n).toNat / 64) (some 1)
    exact ⟨_, k, h⟩

/-- A row read by a core changes the free counter, cores, what checking keeps and what the proctor has been told. -/
theorem coreRead_changes (s : State) (u r slot pc cyc : Nat) :
    ∃ f cs k v, (coreRead s u r slot pc cyc).1 = { s with free := f, cores := cs, chk := k, rcv := v } := by
  obtain ⟨cs, k, h⟩ := countCorrected_changes { s with free := (scratchRead s u r).free } u (scratchRead s u r).corr
  unfold coreRead
  dsimp only
  rw [h]
  split <;> exact ⟨_, _, _, _, rfl⟩

/-- Of the units of a core only the reads still to be made and what they have read change. -/
def OnlyReads (u : Nat) (s t : State) : Prop :=
  tblWf mcore0 t.mcores = true ∧ ∃ r g p d, getM t u = { getM s u with reads := r, got := g, portCyc := p, dones := d }

theorem OnlyReads.refl {u : Nat} {s : State} (w : tblWf mcore0 s.mcores = true) : OnlyReads u s s := ⟨w, _, _, _, _, rfl⟩

theorem OnlyReads.trans {u : Nat} {s t r : State} (h : OnlyReads u s t) (k : OnlyReads u t r) : OnlyReads u s r := by
  obtain ⟨-, _, _, _, _, ht⟩ := h
  obtain ⟨w, _, _, _, _, hr⟩ := k
  exact ⟨w, _, _, _, _, by rw [hr, ht]⟩

theorem readOne_onlyReads {s : State} (w : tblWf mcore0 s.mcores = true) (u : Nat) (r : URead) : OnlyReads u s (readOne s u r) := by
  obtain ⟨f, cs, k, v, h⟩ := coreRead_changes s u r.row r.cmd.slot r.cmd.pc r.cmd.cyc
  unfold readOne modM
  dsimp only
  rw [h]
  exact ⟨setM_wf w u _, _, _, _, _, getM_setM w u _⟩

theorem serveAt_onlyReads {s : State} (w : tblWf mcore0 s.mcores = true) (u t : Nat) : OnlyReads u s (serveAt s u t) := by
  have h := List.foldlRecOn (motive := OnlyReads u s) (portReads (getM s u) t) (fun s r => readOne s u r) (.refl w)
    fun _ hs r _ => hs.trans (readOne_onlyReads hs.1 u r)
  exact h.trans ⟨setM_wf h.1 u _, _, _, _, _, getM_setM h.1 u _⟩

theorem serveReads_onlyReads (u now n : Nat) {s : State} (w : tblWf mcore0 s.mcores = true) : OnlyReads u s (serveReads s u now n) := by
  induction n generalizing s with
  | zero => exact .refl w
  | succ n ih =>
    unfold serveReads
    dsimp only
    split
    · exact .refl w
    · split
      · exact .refl w
      · next d _ _ =>
        have h := serveAt_onlyReads w u (max (getM s u).portCyc d)
        exact h.trans (ih h.1)

theorem catchUp_onlyReads {s : State} (w : tblWf mcore0 s.mcores = true) (u : Nat) : OnlyReads u s (catchUp s u) :=
  serveReads_onlyReads u _ _ w

theorem catchUp_of_no_reads {s : State} {u : Nat} (h : (getM s u).reads = []) : catchUp s u = s := by
  unfold catchUp
  rw [h]
  rfl

/-! ## What is complete takes effect -/

/-- An MVM whose rows are read: slots, jobs and what was read change, and every job keeps its MVM. -/
theorem finishMvm_changes (m : MCore) :
    ∃ t l g, finishMvm m = { m with mvSlots := t, mvJobs := l, got := g } ∧ l.map (·.cmd) = m.mvJobs.map (·.cmd) := by
  unfold finishMvm
  split
  · exact ⟨_, _, _, rfl, rfl⟩
  · split
    · exact ⟨_, _, _, rfl, rfl⟩
    · refine ⟨_, _, _, rfl, ?_⟩
      rw [List.map_map]
      refine List.map_congr_left fun x _ => ?_
      rw [Function.comp_apply]
      split <;> rfl

theorem finishChk_changes (m : MCore) :
    ∃ l g, finishChk m = { m with mvJobs := l, got := g } ∧ l.map (·.cmd) = m.mvJobs.map (·.cmd) := by
  unfold finishChk
  split
  · exact ⟨_, _, rfl, rfl⟩
  · split
    · exact ⟨_, _, rfl, rfl⟩
    · refine ⟨_, _, rfl, ?_⟩
      rw [List.map_map]
      refine List.map_congr_left fun x _ => ?_
      rw [Function.comp_apply]
      split <;> rfl

theorem finishLdw_changes (now : Nat) (m : MCore) : ∃ l t g, finishLdw now m = { m with ldw := l, shadow := t, got := g } := by
  unfold finishLdw
  split
  · exact ⟨_, _, _, rfl⟩
  · split <;> exact ⟨_, _, _, rfl⟩

theorem settleM_wf {s : State} (w : tblWf mcore0 s.mcores = true) (u : Nat) : tblWf mcore0 (settleM s u).mcores = true :=
  setM_wf (catchUp_onlyReads w u).1 u _

/-- The units catching up keep the queues of the matrix-vector path and of the check column, and the MVMs that have begun. -/
theorem settleM_keeps {s : State} (w : tblWf mcore0 s.mcores = true) (u : Nat) :
    (getM (settleM s u) u).mvQ = (getM s u).mvQ ∧ (getM (settleM s u) u).checkQ = (getM s u).checkQ
      ∧ (getM (settleM s u) u).mvJobs.map (·.cmd) = (getM s u).mvJobs.map (·.cmd) := by
  obtain ⟨hw, r, g, p, d, hr⟩ := catchUp_onlyReads w u
  obtain ⟨t1, l1, g1, h1, hl1⟩ := finishMvm_changes (getM (catchUp s u) u)
  obtain ⟨l2, g2, h2, hl2⟩ := finishChk_changes (finishMvm (getM (catchUp s u) u))
  obtain ⟨l3, t3, g3, h3⟩ := finishLdw_changes (unitNow s u) (finishChk (finishMvm (getM (catchUp s u) u)))
  have h : getM (settleM s u) u = _ := (getM_setM hw u _).trans h3
  rw [h]
  refine ⟨?_, ?_, ?_⟩
  · rw [h2, h1, hr]
  · rw [h2, h1, hr]
  · show (finishChk _).mvJobs.map _ = _
    rw [h2]
    show l2.map _ = _
    rw [hl2, h1]
    show l1.map _ = _
    rw [hl1, hr]

/-- Units without a read on its way change only by what is complete. -/
theorem getM_settleM_of_no_reads {s : State} (w : tblWf mcore0 s.mcores = true) {u : Nat} (h : (getM s u).reads = []) :
    getM (settleM s u) u = finishLdw (unitNow s u) (finishChk (finishMvm (getM s u))) := by
  unfold settleM modM
  rw [catchUp_of_no_reads h]
  exact getM_setM w u _

/-- Quiet units stay as they are. -/
theorem settleM_of_quiet {s : State} (w : tblWf mcore0 s.mcores = true) {u : Nat} (q : QuietUnits (getM s u)) : settleM s u = s := by
  obtain ⟨hr, hl, hj⟩ := q
  have h1 : finishMvm (getM s u) = getM s u := by
    have hf : (getM s u).mvJobs.find? (·.xs.isEmpty) = none :=
      List.find?_eq_none.2 fun j h => by simpa using (hj j h).1
    unfold finishMvm
    rw [hf]
  have h2 : finishChk (getM s u) = getM s u := by
    have hf : (getM s u).mvJobs.find? (fun j => j.chk.isSome && j.sums.isEmpty) = none :=
      List.find?_eq_none.2 fun j h => by simpa using (hj j h).2
    unfold finishChk
    rw [hf]
  have h3 : finishLdw (unitNow s u) (getM s u) = getM s u := by
    unfold finishLdw
    rw [hl]
  unfold settleM modM
  dsimp only
  rw [catchUp_of_no_reads hr, h1, h2, h3]
  exact setM_getM w u

theorem attachChk_of_empty {s : State} {u : Nat} (h : (getM s u).checkQ = []) : attachChk s u = s := by
  unfold attachChk
  simp only [h]

theorem attachChk_mvSlots {s : State} (w : tblWf mcore0 s.mcores = true) (u : Nat) :
    (getM (attachChk s u) u).mvSlots = (getM s u).mvSlots := by
  unfold attachChk
  dsimp only
  split
  · rfl
  · split
    · rw [getM_setM w]
    · rfl

/-! ## The events of a loaded M-core -/

section
variable {s : State} {u : Site} (h : LoadedM s u)
include h

theorem mcores_wf_of_loaded : tblWf mcore0 s.mcores = true := by
  obtain ⟨-, -, w, -⟩ := h
  exact w

theorem onM_of_loaded (f : State → Nat → State) : onM s u.val f = f s u.val := by
  obtain ⟨hkind, hplc, -, hgated⟩ := h
  simp [onM, clocked, hkind, hplc, hgated]

theorem exec_passBegin : exec (.passBegin u) s = .next (passBegin s u.val) := congrArg Host.Outcome.next (onM_of_loaded h _)

theorem exec_vectorEntry : exec (.vectorEntry u) s = .next (vectorEntry s u.val) := congrArg Host.Outcome.next (onM_of_loaded h _)

theorem exec_addToTally (z : Option CellUpset) : exec (.addToTally { site := u, upset := z }) s = .next (tallyAdd s u.val z) :=
  congrArg Host.Outcome.next (onM_of_loaded h _)

theorem exec_chkownHandover : exec (.chkownHandover u) s = .next (chkownHandover s u.val) := congrArg Host.Outcome.next (onM_of_loaded h _)

theorem exec_mvmBegin : exec (.mvmBegin u) s = .next (mvmBegin s u.val) := congrArg Host.Outcome.next (onM_of_loaded h _)

theorem exec_chkcsTest : exec (.chkcsTest u) s = .next (chkcsTest s u.val) := congrArg Host.Outcome.next (onM_of_loaded h _)

theorem exec_drainVector : exec (.drainVector u) s = .next (drainVector s u.val) := congrArg Host.Outcome.next (onM_of_loaded h _)

end

end Sys2Proof.Laws
end

section
/-! SUPPORT. The array and the check column's owner: passes, vectors, contributions and the hand-over (R180, R185, R188, R200, R224). -/

namespace Sys2Proof.Laws

open Sys2Proof Sys2Proof.Machine

/-! ## PASS -/

/-- The units at the beginning of a PASS (R180, R181). -/
def passBegun (m : MCore) (c : MCmd) (rest : List MCmd) (now : Nat) : MCore :=
  let m := { m with arrayQ := rest, pass := if bits c.w 45 30 = 0 then none else some c, mismatch := false }
  if m.swapped then { m with active := m.shadow, shadow := m.active, swapped := false, busyTill := now + 514 } else m

theorem passBegin_of_quiet {s : State} (w : tblWf mcore0 s.mcores = true) {u : Nat} (q : QuietUnits (getM s u)) {c : MCmd} {rest : List MCmd}
    (hp : (getM s u).pass = none) (hq : (getM s u).arrayQ = c :: rest) (ho : c.opc = 0x2A) :
    passBegin s u = stepArray (setM s u (passBegun (getM s u) c rest (unitNow s u))) u := by
  have hgo : ¬ (c.opc ≠ 0x2A ∨ ((getM s u).swapped = true ∧ (getM s u).ldw.isSome = true)) := by
    obtain ⟨-, hldw, -⟩ := q
    simp [ho, hldw]
  unfold passBegin
  simp only [settleM_of_quiet w q, hp, hq]
  rw [if_neg hgo]
  rfl

/-! ## Vectors -/

section
variable {s : State} {u : Nat} {c : MCmd} {v : FVec} {l : List FVec} (hp : (getM s u).pass = some c) (hf : (getM s u).fifo = v :: l)
  (hm : (getM s u).mismatch = false) (h4 : rateClass v.fmt ≠ 4)
include hp hf hm h4

/-- A vector that is not 4-bit waits in a PASS with accumulate 0 while its slot is LIVE (R188). -/
theorem vectorEntry_of_live (ha : bit c.w 29 = false) (hs : (arraySlot (getM s u) (bit c.w 55) ((bits c.w 54 46 + c.done) % 512)).live = true) :
    vectorEntry s u = s := by
  unfold vectorEntry
  simp [hp, hf, hm, h4, ha, hs, upFrom]

/-- A vector of the tile's rate class that is not 4-bit and whose slot need not wait is sent on its way alone (R185, R188, R917). -/
theorem vectorEntry_of_free (hw : ∀ f, (getM s u).active.fmt = some f → rateClass f = rateClass v.fmt)
    (hs : bit c.w 29 = true ∨ ((arraySlot (getM s u) (bit c.w 55) ((bits c.w 54 46 + c.done) % 512)).live = false
      ∧ inFlightTo (getM s u) (bit c.w 55) ((bits c.w 54 46 + c.done) % 512) = false)) :
    vectorEntry s u = stepArray (setM s u (sendVectors (getM s u) c 1)) u := by
  have hbusy : (!bit c.w 29 && ((arraySlot (getM s u) (bit c.w 55) ((bits c.w 54 46 + c.done) % 512)).live
      || inFlightTo (getM s u) (bit c.w 55) ((bits c.w 54 46 + c.done) % 512))) = false := by
    rcases hs with ha | ⟨hl, hi⟩
    · simp [ha]
    · simp [hl, hi]
  unfold vectorEntry
  cases hfmt : (getM s u).active.fmt with
  | none => simp [hp, hf, hm, h4, upFrom, hbusy, hfmt]
  | some f => simp [hp, hf, hm, h4, upFrom, hbusy, hfmt, hw f hfmt]

end

/-- One vector sent: it leaves the queues for its slot, and the PASS ends with its last (R185). -/
theorem sendVectors_one {m : MCore} {c : MCmd} {v : FVec} {l : List FVec} (hf : m.fifo = v :: l) (hm : m.mismatch = false) :
    sendVectors m c 1 = { m with
      fifo := l,
      flight := m.flight ++ [{ cyc := c.cyc, bank := bit c.w 55, slot := (bits c.w 54 46 + c.done) % 512, vec := v, tile := m.active }],
      pass := if c.done + 1 = bits c.w 45 30 then none else some { c with done := c.done + 1 } } := by
  simp [sendVectors, hf, hm]

/-! ## Contributions -/

theorem slotAdd_live (sl : TSlot) (v : FVec) (t : Tile2) (z : Option CellError) : (slotAdd sl v t z).live = true := rfl

theorem slotAdd_pois (sl : TSlot) (v : FVec) (t : Tile2) (z : Option CellError) :
    (slotAdd sl v t z).pois = (sl.pois || v.pois || t.pois) := rfl

/-- The oldest contribution is off the way and in its slot, with nothing in the array queue to run after it (R200). -/
theorem tallyAdd_spec {s : State} (w : tblWf mcore0 s.mcores = true) {u : Nat} {x : Contrib} {l : List Contrib}
    (hf : (getM s u).flight = x :: l) (hq : (getM s u).arrayQ = []) (z : Option CellUpset) :
    (getM (tallyAdd s u z) u).flight = l ∧ arraySlot (getM (tallyAdd s u z) u) x.bank x.slot
      = slotAdd (arraySlot (getM s u) x.bank x.slot) x.vec x.tile (z.bind (cellError? (getM s u))) := by
  let sl := slotAdd (arraySlot (getM s u) x.bank x.slot) x.vec x.tile (z.bind (cellError? (getM s u)))
  let m := setBank { getM s u with flight := l } x.bank (tset tslot0 (bankOf (getM s u) x.bank) x.slot sl)
  have hm : m.flight = l ∧ m.arrayQ = [] := by
    simp only [m]
    cases x.bank <;> exact ⟨rfl, hq⟩
  have hne : sl ≠ tslot0 := fun e => by
    have hlive : sl.live = true := slotAdd_live _ _ _ _
    rw [e] at hlive
    cases hlive
  have ht : tallyAdd s u z = stepArray (setM s u m) u := by
    unfold tallyAdd
    simp only [hf]
    rfl
  have hg : getM (tallyAdd s u z) u = m := by
    rw [ht, getM_stepArray (setM_wf w u m), getM_setM w, hm.2]
    rfl
  rw [hg]
  refine ⟨hm.1, ?_⟩
  rw [arraySlot, bankOf_setBank, if_pos rfl]
  exact tget_tset_self tslot0 _ _ hne

/-! ## The check column's owner -/

/-- A slip changes its placement, the report, the alert causes, ring 18's index, the count of dropped events and what leaves the module. -/
theorem addSlip_changes (s : State) (p : Nat) (u : Option Nat) (r k : Nat) :
    ∃ ps x c rs o d, addSlip s p u r k
      = { s with plcs := ps, rpt := x, sbd := { s.sbd with cause := c }, rings := rs, out := o, evDropped := d } := by
  unfold addSlip
  split
  · exact ⟨_, _, _, _, _, _, rfl⟩
  · dsimp only
    split
    · obtain ⟨x, c, rs, o, d, -, h⟩ := postEntry_changes (modPlc s p fun x => { x with siltE := _, siltK := _, changed := true })
        { kind := 0x05, level := 2, stamp := s.clk.master, unit := u, plc := some p, action := 1 }
      exact ⟨_, x, c, rs, o, d, h⟩
    · exact ⟨_, _, _, _, _, _, rfl⟩

section
variable {s : State} {u : Nat} {c : MCmd} (hq : (getM s u).checkQ = [c]) (ho : c.opc = 0x3C)
include hq ho

/-- A CHKOWN alone in the check queue takes effect once the owner's earlier work is checked (R224). -/
theorem chkownHandover_of_idle (w : tblWf mcore0 s.mcores = true) (hi : ownerIdle (getM s u) c.cyc = true) :
    getM (chkownHandover s u) u = { getM s u with checkQ := [], owner := bit c.w 55 } := by
  obtain ⟨t, ht, he⟩ : ∃ t : State, t.mcores = s.mcores
      ∧ chkownHandover s u = attachChk (setM t u { getM s u with checkQ := [], owner := bit c.w 55 }) u := by
    unfold chkownHandover
    simp only [hq, ho, hi, and_self, if_true]
    refine ⟨_, ?_, rfl⟩
    split
    · split
      · rfl
      · obtain ⟨_, _, _, _, _, _, h⟩ := addSlip_changes s _ (some u) (regionOf u) _
        rw [h]
    · rfl
  have hm := getM_setM (ht ▸ w) u { getM s u with checkQ := [], owner := bit c.w 55 }
  rw [he, attachChk_of_empty (congrArg MCore.checkQ hm), hm]

theorem chkownHandover_of_busy (hi : ownerIdle (getM s u) c.cyc = false) : chkownHandover s u = s := by
  unfold chkownHandover
  simp [hq, ho, hi]

end

end Sys2Proof.Laws
end

section
/-! SUPPORT. The array's events, put together. -/

namespace Sys2Proof

open Sys2Proof.Machine Sys2Proof.Laws

/-- Settles O34: each event by its lemma; what the array queue does after it leaves the PASS, the tile, the queues and the way to the
slots as they are. -/
theorem passesAndTallies : Obligations.PassesAndTallies := by
  unfold Obligations.PassesAndTallies
  intro s u c rest h
  have w := mcores_wf_of_loaded h
  refine ⟨fun q hp hq ho => ?_, fun v l hp hf hm h4 hw hs => ?_, fun v l hp hf hm h4 ha hs => ?_, fun x l z hf hq => ?_,
    fun hq ho hi => ?_, fun hq ho hi => ?_⟩
  · refine ⟨_, exec_passBegin h, ?_⟩
    rw [passBegin_of_quiet w q hp hq ho, getM_stepArray (setM_wf w _ _), getM_setM w]
    obtain ⟨_, _, _, _, hr⟩ := runArray_changes (passBegun (getM s u.val) c rest (unitNow s u.val)).arrayQ.length
      (passBegun (getM s u.val) c rest (unitNow s u.val))
    rw [hr]
    unfold passBegun
    cases (getM s u.val).swapped <;> exact ⟨rfl, rfl, rfl⟩
  · refine ⟨_, exec_vectorEntry h, ?_⟩
    rw [vectorEntry_of_free hp hf hm h4 hw hs, getM_stepArray (setM_wf w _ _), getM_setM w, sendVectors_one hf hm]
    obtain ⟨_, _, _, _, hr⟩ := runArray_changes (getM s u.val).arrayQ.length (sendVectors (getM s u.val) c 1)
    rw [sendVectors_one hf hm] at hr
    rw [hr]
    exact ⟨rfl, rfl, rfl⟩
  · rw [exec_vectorEntry h, vectorEntry_of_live hp hf hm h4 ha hs]
  · obtain ⟨hflight, hslot⟩ := tallyAdd_spec w hf hq z
    refine ⟨_, exec_addToTally h z, hflight, ?_, ?_⟩
    · rw [hslot, slotAdd_live]
    · rw [hslot, slotAdd_pois]
      simp [or_assoc]
  · refine ⟨_, exec_chkownHandover h, ?_⟩
    rw [chkownHandover_of_idle hq ho w hi]
    exact ⟨rfl, rfl⟩
  · rw [exec_chkownHandover h, chkownHandover_of_busy hq ho hi]

end Sys2Proof
end

section
/-! SUPPORT. The matrix-vector path and its test (R210, R214, R218, R221). -/

namespace Sys2Proof.Laws

open Sys2Proof Sys2Proof.Machine

/-! ## MVM -/

section
variable {s : State} (w : tblWf mcore0 s.mcores = true) {u : Nat} (q : QuietUnits (getM s u)) {c : MCmd} {rest : List MCmd}
  (hq : (getM s u).mvQ = c :: rest)
include w q hq

theorem mvmBegin_of_live (hl : ∃ k ∈ mvmSlots c.w, (tget tslot0 (getM s u).mvSlots k).live = true) : mvmBegin s u = s := by
  have hany : (mvmSlots c.w).any (fun k => (tget tslot0 (getM s u).mvSlots k).live) = true := List.any_eq_true.2 hl
  unfold mvmBegin
  simp [settleM_of_quiet w q, hq, hany]

/-- An MVM whose slots are EMPTY, after one whose CHKCS has begun, leaves its queue as the youngest that has begun (R214, R216). -/
theorem mvmBegin_of_empty (hl : ∀ k ∈ mvmSlots c.w, (tget tslot0 (getM s u).mvSlots k).live = false)
    (hj : ∀ j ∈ (getM s u).mvJobs, j.chk.isSome = true) (hc : (getM s u).checkQ = []) :
    (getM (mvmBegin s u) u).mvQ = rest ∧ (getM (mvmBegin s u) u).mvJobs.map (·.cmd) = (getM s u).mvJobs.map (·.cmd) ++ [c] := by
  have hlive : (mvmSlots c.w).any (fun k => (tget tslot0 (getM s u).mvSlots k).live) = false :=
    List.any_eq_false.2 fun k hk => by simp [hl k hk]
  have hchk : (getM s u).mvJobs.any (·.chk.isNone) = false :=
    List.any_eq_false.2 fun j h hn => by simpa [Option.isNone_iff_eq_none.1 hn] using hj j h
  have hreads : readsLeft (getM s u) 0x3D = false := by
    obtain ⟨hr, -, -⟩ := q
    simp [readsLeft, hr]
  obtain ⟨j, l, hjob, hb⟩ : ∃ (j : MvJob) (l : List URead), j.cmd = c ∧ mvmBegin s u
      = attachChk (settleM (setM s u { getM s u with mvQ := rest, mvJobs := (getM s u).mvJobs ++ [j], reads := l }) u) u := by
    unfold mvmBegin
    simp only [settleM_of_quiet w q, hq, hlive, hchk, hreads, Bool.false_eq_true, or_self, if_false]
    exact ⟨_, _, rfl, rfl⟩
  have hm := getM_setM w u { getM s u with mvQ := rest, mvJobs := (getM s u).mvJobs ++ [j], reads := l }
  obtain ⟨hmvQ, hcheckQ, hjobs⟩ := settleM_keeps (setM_wf w u { getM s u with mvQ := rest, mvJobs := (getM s u).mvJobs ++ [j], reads := l }) u
  rw [hm] at hmvQ hcheckQ hjobs
  rw [hb, attachChk_of_empty (hcheckQ.trans hc), hmvQ, hjobs, List.map_append, List.map_singleton, hjob]
  exact ⟨rfl, rfl⟩

end

/-- Every slot of an MVM holds one of its outputs (R214). -/
theorem exists_output_of_mem_mvmSlots {w k : Nat} (h : k ∈ mvmSlots w) : ∃ o ∈ upFrom 0 (bits w 51 37 + 1), bits w 28 23 + o / 256 = k := by
  obtain ⟨hlo, hhi⟩ := mem_upFrom.1 h
  unfold ceilDiv at hhi
  exact ⟨256 * (k - bits w 28 23), mem_upFrom.2 (by omega), by omega⟩

/-- The oldest MVM, its rows read, makes its slots LIVE (R214). -/
theorem finishMvm_live {m : MCore} {j : MvJob} {l : List MvJob} (hr : m.reads = []) (hj : m.mvJobs = j :: l) (hx : j.xs = []) {k : Nat}
    (hk : k ∈ mvmSlots j.cmd.w) : (tget tslot0 (finishMvm m).mvSlots k).live = true := by
  obtain ⟨o, ho, rfl⟩ := exists_output_of_mem_mvmSlots hk
  have hfind : m.mvJobs.find? (·.xs.isEmpty) = some j := by simp [hj, hx]
  have hleft : readsLeft m 0x30 = false := by simp [readsLeft, hr]
  unfold finishMvm
  simp only [hfind, hleft, Bool.false_eq_true, if_false]
  exact tget_foldl_tmod_gains (P := fun x : TSlot => x.live = true) (by decide) (fun _ _ _ => rfl) (fun o => bits j.cmd.w 28 23 + o / 256)
    (fun _ _ => rfl) ho _

/-! ## The test -/

/-- The units after the test of their oldest MVM (R218, R221): a failed one poisons its slots and is kept for the drain. -/
def mvmTested (m : MCore) (j : MvJob) (l : List MvJob) (ok : Bool) : MCore :=
  let x := countRow { m with mvJobs := l } (mvTallies m j.cmd.w) (chkTally j)
  if ok then x
  else { x with mvSlots := (mvmSlots j.cmd.w).foldl (fun t k => tmod tslot0 t k fun x => { x with pois := true }) x.mvSlots,
                mvBad := x.mvBad ++ [(bits j.cmd.w 28 23, (mvmSlots j.cmd.w).length)] }

theorem mvmTested_mvJobs (m : MCore) (j : MvJob) (l : List MvJob) (ok : Bool) : (mvmTested m j l ok).mvJobs = l := by
  cases ok <;> rfl

theorem mvmTested_of_failed (m : MCore) (j : MvJob) (l : List MvJob) {k : Nat} (hk : k ∈ mvmSlots j.cmd.w) :
    (tget tslot0 (mvmTested m j l false).mvSlots k).pois = true :=
  tget_foldl_tmod_gains (P := fun x : TSlot => x.pois = true) (by decide) (fun _ _ _ => rfl) id (fun _ _ => rfl) hk _

theorem mvmTested_keeps_live (m : MCore) (j : MvJob) (l : List MvJob) (ok : Bool) {k : Nat} (h : (tget tslot0 m.mvSlots k).live = true) :
    (tget tslot0 (mvmTested m j l ok).mvSlots k).live = true := by
  cases ok with
  | true => exact h
  | false =>
    have hf : ∀ (_ : Nat) (x : TSlot), x.live = true → ({ x with pois := true } : TSlot).live = true := fun _ _ hx => hx
    exact tget_foldl_tmod_keeps (P := fun x : TSlot => x.live = true) (by decide) hf id _ h

/-- Whether the comparator passes an MVM: its sums agree, or the matrix-vector check is disabled (R218, R221). -/
def testPasses (s : State) (u : Nat) (j : MvJob) : Bool :=
  compareTallies (mvTallies (getM s u) j.cmd.w) (chkTally j) || !bit s.chk.enables.toNat 1

/-- The test waits for the oldest MVM and its CHKCS to be complete, then closes the MVM. -/
theorem chkcsTest_of_job {s : State} {u : Nat} {j : MvJob} {l : List MvJob} (hj : (getM (settleM s u) u).mvJobs = j :: l) :
    chkcsTest s u = (let t := settleM s u
      if j.xs.isEmpty = true ∨ j.sums.isEmpty = true ∨ unitNow t u < j.drained then t
      else attachChk (setM t u (mvmTested (getM t u) j l (testPasses t u j))) u) := by
  unfold chkcsTest
  simp only [hj]
  rfl

/-- The test leaves the units as they have settled, or closes an MVM there. -/
theorem chkcsTest_cases (s : State) (u : Nat) : chkcsTest s u = settleM s u
    ∨ ∃ j l ok, chkcsTest s u = attachChk (setM (settleM s u) u (mvmTested (getM (settleM s u) u) j l ok)) u := by
  cases hj : (getM (settleM s u) u).mvJobs with
  | nil => exact .inl (by unfold chkcsTest; simp only [hj])
  | cons j l =>
    rw [chkcsTest_of_job hj]
    dsimp only
    split
    · exact .inl rfl
    · exact .inr ⟨j, l, _, rfl⟩

theorem chkcsTest_keeps_live {s : State} (w : tblWf mcore0 s.mcores = true) {u k : Nat}
    (h : (tget tslot0 (getM (settleM s u) u).mvSlots k).live = true) : (tget tslot0 (getM (chkcsTest s u) u).mvSlots k).live = true := by
  have hw := settleM_wf w u
  rcases chkcsTest_cases s u with he | ⟨j, l, ok, he⟩
  · rw [he]; exact h
  · rw [he, attachChk_mvSlots (setM_wf hw u _), getM_setM hw]
    exact mvmTested_keeps_live _ j l ok h

/-- The oldest MVM has its rows read: its slots are LIVE, whether the test comes at once or not. -/
theorem chkcsTest_fills {s : State} (w : tblWf mcore0 s.mcores = true) {u : Nat} {j : MvJob} {l : List MvJob} (hr : (getM s u).reads = [])
    (hj : (getM s u).mvJobs = j :: l) (hx : j.xs = []) {k : Nat} (hk : k ∈ mvmSlots j.cmd.w) :
    (tget tslot0 (getM (chkcsTest s u) u).mvSlots k).live = true := by
  refine chkcsTest_keeps_live w ?_
  obtain ⟨_, _, hc, -⟩ := finishChk_changes (finishMvm (getM s u))
  obtain ⟨_, _, _, hl⟩ := finishLdw_changes (unitNow s u) (finishChk (finishMvm (getM s u)))
  rw [getM_settleM_of_no_reads w hr, hl, hc]
  exact finishMvm_live hr hj hx hk

section
variable {s : State} (w : tblWf mcore0 s.mcores = true) {u : Nat} (q : QuietUnits (getM s u)) {j : MvJob} {l : List MvJob}
  (hj : (getM s u).mvJobs = j :: l)
include w q hj

theorem chkcsTest_of_early (hd : unitNow s u < j.drained) : chkcsTest s u = s := by
  have ht := settleM_of_quiet w q
  rw [chkcsTest_of_job (ht.symm ▸ hj), ht]
  exact if_pos (.inr (.inr hd))

/-- The oldest MVM and its CHKCS are complete, and the check queue is empty: the test closes the MVM (R221). -/
theorem chkcsTest_of_complete (hc : j.chk.isSome = true) (hd : j.drained ≤ unitNow s u) (he : (getM s u).checkQ = []) :
    getM (chkcsTest s u) u = mvmTested (getM s u) j l (testPasses s u j) := by
  have ht := settleM_of_quiet w q
  obtain ⟨-, -, hjobs⟩ := q
  obtain ⟨hxs, hsums⟩ := hjobs j (hj ▸ List.mem_cons_self)
  have hgo : ¬ (j.xs.isEmpty = true ∨ j.sums.isEmpty = true ∨ unitNow s u < j.drained) := by
    simp [hxs, hsums hc, hd]
  have hcheck : (mvmTested (getM s u) j l (testPasses s u j)).checkQ = [] := by
    cases testPasses s u j <;> exact he
  have hm := getM_setM w u (mvmTested (getM s u) j l (testPasses s u j))
  rw [chkcsTest_of_job (ht.symm ▸ hj), ht]
  dsimp only
  rw [if_neg hgo, attachChk_of_empty ((congrArg MCore.checkQ hm).trans hcheck), hm]

end

end Sys2Proof.Laws
end

section
/-! SUPPORT. The drain (R207 to R212, R218, R219, R291). -/

namespace Sys2Proof.Laws

open Sys2Proof Sys2Proof.Machine

/-! ## Rows to a stream port -/

/-- Changing a segment that is found, by a change that keeps its name. -/
theorem findSeg_modSeg {s : State} {p id : Nat} {g : Seg} (h : findSeg s p id = some g) {f : Seg → Seg}
    (hf : ∀ g, (f g).plc = g.plc ∧ (f g).id = g.id) : findSeg (modSeg s p id f) p id = some (f g) := by
  have hsame : (fun g : Seg => g.plc.val == p && g.id == id) ∘ (fun g => if g.plc.val = p ∧ g.id = id then f g else g)
      = fun g => g.plc.val == p && g.id == id := by
    funext g
    rw [Function.comp_apply]
    split
    · rw [(hf g).1, (hf g).2]
    · rfl
  have hg := List.find?_some h
  simp only [Bool.and_eq_true, beq_iff_eq] at hg
  unfold findSeg modSeg
  rw [List.find?_map, hsame, show s.segs.find? _ = some g from h, Option.map_some, if_pos hg]

theorem findSeg_pushRows {s : State} {p id : Nat} {g : Seg} (h : findSeg s p id = some g) (l : List SRow) :
    findSeg (pushRows s p id l) p id = some { g with buf := g.buf ++ l } :=
  findSeg_modSeg (f := fun g => { g with buf := g.buf ++ l }) h fun _ => ⟨rfl, rfl⟩

section
variable {s : State} {u port : Nat} {q : Plc} {id : Nat} {g : Seg} (ho : tfind (getCore s u).outPorts port = some (q, id))
  (hg : findSeg s q.val id = some g) (rows : List (Row × Bool))
include ho hg

/-- A segment without credit takes no row. -/
theorem drainPush_of_no_credit (hc : g.credits = 0) : drainPush s u port rows = (s, 0) := by
  have hp : portSeg s u port = some g := by unfold portSeg; simp only [ho, hg]
  unfold drainPush
  simp only [ho, hp, hc, Nat.zero_min, if_true]

/-- A segment with a credit and a place for each row takes them all (R211, R291). -/
theorem drainPush_of_room (hc : rows.length ≤ g.credits) (hb : g.buf.length + rows.length ≤ 32) :
    (drainPush s u port rows).2 = rows.length ∧ (drainPush s u port rows).1.mcores = s.mcores
      ∧ ∃ g', findSeg (drainPush s u port rows).1 q.val id = some g' ∧ g'.credits + rows.length = g.credits
        ∧ g'.buf.length = g.buf.length + rows.length := by
  have hp : portSeg s u port = some g := by unfold portSeg; simp only [ho, hg]
  have hn : min (min g.credits (bufRoom g)) rows.length = rows.length := by unfold bufRoom; omega
  unfold drainPush
  simp only [ho, hp, hn]
  refine ⟨trivial, ?_, ?_⟩
  · split <;> rfl
  · split
    · next h0 => exact ⟨g, hg, by omega, by omega⟩
    · have hcredit := findSeg_modSeg (f := fun g => { g with credits := g.credits - rows.length }) hg fun _ => ⟨rfl, rfl⟩
      refine ⟨_, findSeg_pushRows hcredit _, Nat.sub_add_cancel hc, ?_⟩
      simp [asStream]

end

/-- A vector of an output format of one row or two drains into as many rows (R158, R209). -/
theorem length_drainPack {f : Nat} (hf : 2 ≤ drainHalves f) (k n data : Nat) (pois : Bool) (half : Option (BitVec 2048 × Bool)) :
    (drainPack f k n data pois half).1.length = drainHalves f / 2 := by
  have h24 : drainHalves f = 4 ∨ drainHalves f = 2 := by
    unfold drainHalves at hf ⊢
    split
    · exact .inl rfl
    · split
      · exact .inr rfl
      · simp_all
  unfold drainPack
  rcases h24 with h | h <;> simp [h]

/-! ## A slot is drained -/

theorem countDrain_changes (s : State) (u : Nat) (sl : TSlot) : ∃ p, countDrain s u sl = { s with plcs := p } := by
  unfold countDrain
  split
  · exact ⟨_, rfl⟩
  · dsimp only
    split <;> exact ⟨_, rfl⟩

theorem captureArb_changes (s : State) (u code cyc : Nat) (orig : List Row) (check : List Int) :
    ∃ k, captureArb s u code cyc orig check = { s with chk := k } := by
  unfold captureArb
  split <;> exact ⟨_, rfl⟩

theorem detectorFault_changes (s : State) (u code slot pc cyc detail : Nat) :
    ∃ cs v, detectorFault s u code slot pc cyc detail = { s with cores := cs, rcv := v } := ⟨_, _, rfl⟩

theorem raiseCheckcol_changes (s : State) (u : Nat) (c : MCmd) (d : Drained) (row k : Nat) (rows : List Row) :
    ∃ cs v x, raiseCheckcol s u c d row k rows = { s with cores := cs, rcv := v, chk := x } := by
  unfold raiseCheckcol
  dsimp only
  generalize fields _ = detail, List.cons d.slot.chk.q _ = check
  obtain ⟨cs, v, hd⟩ := detectorFault_changes s u 0x24 c.slot c.pc c.cyc detail
  obtain ⟨x, hc⟩ := captureArb_changes (detectorFault s u 0x24 c.slot c.pc c.cyc detail) u 0x24 c.cyc rows check
  rw [hc, hd]
  exact ⟨cs, v, x, rfl⟩

/-- The commands of the drain once slot `c.done` of the first of them is drained (R210). -/
def drainNext (c : MCmd) (rest : List MCmd) : List MCmd :=
  if c.done = bits c.w 44 36 then rest else { c with done := c.done + 1 } :: rest

/-- An M-core without a read on its way whose drain has emptied a slot and moved on. -/
structure HasDrained (t : State) (u : Nat) (b : Bool) (k : Nat) (q : List MCmd) : Prop where
  wf : tblWf mcore0 t.mcores = true
  reads : (getM t u).reads = []
  queue : (getM t u).drainQ = q
  bank : tblWf tslot0 (bankOf (getM t u) b) = true
  slot : arraySlot (getM t u) b k = tslot0

theorem HasDrained.of_mcores {t r : State} {u : Nat} {b : Bool} {k : Nat} {q : List MCmd} (h : HasDrained t u b k q)
    (e : r.mcores = t.mcores) : HasDrained r u b k q := by
  obtain ⟨wf, reads, queue, bank, slot⟩ := h
  rw [← e] at wf
  rw [← getM_congr e] at reads queue bank slot
  exact ⟨wf, reads, queue, bank, slot⟩

/-- What the array queue does next leaves the slot EMPTY. -/
theorem HasDrained.stepArray {t : State} {u : Nat} {b : Bool} {k : Nat} {q : List MCmd} (h : HasDrained t u b k q) :
    arraySlot (getM (stepArray t u) u) b k = tslot0 ∧ (getM (stepArray t u) u).drainQ = q := by
  rw [getM_stepArray h.wf]
  refine ⟨runArray_keeps_empty _ h.bank h.slot, ?_⟩
  obtain ⟨_, _, _, _, hr⟩ := runArray_changes (getM t u).arrayQ.length (getM t u)
  rw [hr]
  exact h.queue

/-- A slot of the array drained changes the units of its core, cores, placements, what checking keeps and what the proctor has been told. -/
theorem drainTaken_changes (s : State) (u : Nat) {src : Nat} (hs : src ≠ 2) (k : Nat) (c : MCmd) (d : Drained)
    (half : Option (BitVec 2048 × Bool)) (first : Nat) (rows : List Row) :
    ∃ x y cs v z p, drainTaken s u src k c d half first rows
      = { setM s u (drainClear { getM s u with half := half, sent := 0, drainQ := drainNext c ((getM s u).drainQ.drop 1),
                                               weakened := x, specials := y } src k) with
          cores := cs, rcv := v, chk := z, plcs := p } := by
  let m := { getM s u with half := half, sent := 0, drainQ := drainNext c ((getM s u).drainQ.drop 1) }
  let ts := (upFrom 0 256).map fun j => tget tally0 d.slot.lanes j
  obtain ⟨x, y, hm⟩ : ∃ x y, (if src = 2 ∨ (!d.slot.live) = true then m else countRow m ts d.slot.chk)
      = { m with weakened := x, specials := y } := by
    split <;> exact ⟨_, _, rfl⟩
  obtain ⟨p, hp⟩ := countDrain_changes (setM s u (drainClear { m with weakened := x, specials := y } src k)) u d.slot
  have ht : drainTaken s u src k c d half first rows
      = (let t := countDrain (setM s u (drainClear { m with weakened := x, specials := y } src k)) u d.slot
         if d.fail then raiseCheckcol t u c d first k rows else t) := by
    rw [← hm]
    simp only [drainTaken, hs, false_and, if_false, Nat.add_right_cancel_iff, m, drainNext, ts]
  rw [ht, hp]
  dsimp only
  split
  · obtain ⟨cs, v, z, h⟩ := raiseCheckcol_changes
      { setM s u (drainClear { m with weakened := x, specials := y } src k) with plcs := p } u c d first k rows
    exact ⟨x, y, cs, v, z, p, h⟩
  · exact ⟨x, y, _, _, _, p, rfl⟩

theorem drainTaken_spec {s : State} (w : tblWf mcore0 s.mcores = true) {u src : Nat} (hs : src ≠ 2) {c : MCmd} {rest : List MCmd}
    (hr : (getM s u).reads = []) (hq : (getM s u).drainQ = c :: rest) (hb : tblWf tslot0 (bankOf (getM s u) (src == 1)) = true)
    (k : Nat) (d : Drained) (half : Option (BitVec 2048 × Bool)) (first : Nat) (rows : List Row) :
    HasDrained (drainTaken s u src k c d half first rows) u (src == 1) k (drainNext c rest)
      ∧ (drainTaken s u src k c d half first rows).segs = s.segs := by
  obtain ⟨x, y, cs, v, z, p, h⟩ := drainTaken_changes s u hs k c d half first rows
  let m := { getM s u with half := half, sent := 0, drainQ := drainNext c rest, weakened := x, specials := y }
  have hm : getM (drainTaken s u src k c d half first rows) u = setBank m (src == 1) (tdel (bankOf m (src == 1)) k) := by
    rw [h, hq]
    refine (getM_setM w u _).trans ?_
    rw [drainClear, if_neg hs]
    rfl
  have hbank : bankOf (getM (drainTaken s u src k c d half first rows) u) (src == 1) = tdel (bankOf (getM s u) (src == 1)) k := by
    rw [hm, bankOf_setBank, if_pos rfl]
    rfl
  refine ⟨⟨?_, ?_, ?_, ?_, ?_⟩, ?_⟩
  · rw [h]; exact setM_wf w u _
  · rw [hm]; cases src == 1 <;> exact hr
  · rw [hm]; cases src == 1 <;> rfl
  · rw [hbank]; exact tdel_wf tslot0 _ none k hb
  · rw [arraySlot, hbank]; exact tget_tdel_self hb k
  · rw [h]; rfl

/-! ## Rows that land -/

theorem landRow_mcores {s : State} {u : Nat} (h : (getM s u).reads = []) (r data : Nat) (pois : Bool) :
    (landRow s u r data pois).mcores = s.mcores := by
  unfold landRow
  rw [catchUp_of_no_reads h]
  rfl

theorem applyPend_mcores {s : State} {u : Nat} (h : (getM s u).reads = []) (p : Pend) : (applyPend s u p).mcores = s.mcores := by
  unfold applyPend
  cases p.dest with
  | gpr i => dsimp only; split <;> rfl
  | row r => exact landRow_mcores h r _ _
  | win k => rfl
  | window k => rfl
  | vec i => rfl
  | pair k => rfl

/-- Results that are due and rows of a drain land without a change of the units, where no read of them is on its way. -/
theorem drainLand_mcores {s : State} {u : Nat} (h : (getM s u).reads = []) (first : Nat) (rows : List (Row × Bool)) :
    (drainLand s u first rows).mcores = s.mcores := by
  have hreads : ∀ {t : State}, t.mcores = s.mcores → (getM t u).reads = [] := fun e => by rw [getM_congr e]; exact h
  have hsettle : (settleCore s u).mcores = s.mcores := by
    unfold settleCore
    dsimp only
    split
    · rfl
    · exact List.foldlRecOn (motive := fun t : State => t.mcores = s.mcores) _ _ rfl
        fun t ht p _ => (applyPend_mcores (hreads ht) p).trans ht
  exact List.foldlRecOn (motive := fun t : State => t.mcores = s.mcores) _ _ hsettle
    fun t ht p _ => (landRow_mcores (hreads ht) (first + p.2) p.1.1.toNat p.1.2).trans ht

/-! ## The drain's event -/

section
variable {s : State} (w : tblWf mcore0 s.mcores = true) {u : Nat} (q : QuietUnits (getM s u)) {c : MCmd} {rest : List MCmd}
  (hq : (getM s u).drainQ = c :: rest) (hs : bits c.w 55 54 < 2)
include w q hq hs

theorem drainVector_of_waiting (ha : arrayWaits (getM s u) c (bits c.w 55 54 == 1) ((bits c.w 53 45 + c.done) % 512) = true) :
    drainVector s u = s := by
  have h2 : bits c.w 55 54 ≠ 2 := Nat.ne_of_lt hs
  unfold drainVector
  simp only [settleM_of_quiet w q, hq, h2, if_false, ha, if_true]

variable (ha : arrayWaits (getM s u) c (bits c.w 55 54 == 1) ((bits c.w 53 45 + c.done) % 512) = false)
include ha

/-- A slot of the array with nothing to wait for is drained to rows (R210, R211). -/
theorem drainVector_to_rows (hb : bit c.w 31 = false) : ∃ d half first rows, drainVector s u
    = (let t := drainTaken s u (bits c.w 55 54) ((bits c.w 53 45 + c.done) % 512) c d half first (rows.map (·.1))
       stepArray (drainLand t u first rows) u) := by
  have h2 : bits c.w 55 54 ≠ 2 := Nat.ne_of_lt hs
  unfold drainVector
  simp only [settleM_of_quiet w q, hq, h2, if_false, ha, hb, Bool.false_eq_true]
  exact ⟨_, _, _, _, rfl⟩

/-- A slot of the array with nothing to wait for is drained to a stream port if the port takes all of its rows (R210, R211). -/
theorem drainVector_to_stream (hb : bit c.w 31 = true) (hf : 2 ≤ drainHalves (bits c.w 35 32)) (hsent : (getM s u).sent = 0) :
    ∃ d half first rows, rows.length = drainHalves (bits c.w 35 32) / 2 ∧ drainVector s u
      = (let x := drainPush s u (bits c.w 30 28) rows
         if x.2 = rows.length then
           stepArray (drainTaken x.1 u (bits c.w 55 54) ((bits c.w 53 45 + c.done) % 512) c d half first (rows.map (·.1))) u
         else modM x.1 u fun m => { m with sent := m.sent + x.2 }) := by
  have h2 : bits c.w 55 54 ≠ 2 := Nat.ne_of_lt hs
  unfold drainVector
  simp only [settleM_of_quiet w q, hq, h2, if_false, ha, hb, if_true, hsent, List.drop_zero, Bool.false_eq_true]
  exact ⟨_, _, _, _, length_drainPack hf _ _ _ _ _, rfl⟩

theorem drainVector_empties_to_rows (hbank : tblWf tslot0 (bankOf (getM s u) (bits c.w 55 54 == 1)) = true) (hb : bit c.w 31 = false) :
    arraySlot (getM (drainVector s u) u) (bits c.w 55 54 == 1) ((bits c.w 53 45 + c.done) % 512) = tslot0
      ∧ (getM (drainVector s u) u).drainQ = drainNext c rest := by
  obtain ⟨d, half, first, rows, hv⟩ := drainVector_to_rows w q hq hs ha hb
  obtain ⟨hd, -⟩ := drainTaken_spec w (Nat.ne_of_lt hs) q.1 hq hbank ((bits c.w 53 45 + c.done) % 512) d half first (rows.map (·.1))
  rw [hv]
  exact (hd.of_mcores (drainLand_mcores hd.reads first rows)).stepArray

variable (hb : bit c.w 31 = true) (hf : 2 ≤ drainHalves (bits c.w 35 32)) (hsent : (getM s u).sent = 0) {p : Plc} {id : Nat} {g : Seg}
  (ho : tfind (getCore s u).outPorts (bits c.w 30 28) = some (p, id)) (hg : findSeg s p.val id = some g)
include hb hf hsent ho hg

/-- Without a credit the slot stays LIVE and nothing leaves (R211). -/
theorem drainVector_of_no_credit (hc : g.credits = 0) : drainVector s u = s := by
  obtain ⟨d, half, first, rows, hlen, hv⟩ := drainVector_to_stream w q hq hs ha hb hf hsent
  have hrows : 0 ≠ rows.length := by omega
  rw [hv, drainPush_of_no_credit ho hg rows hc]
  dsimp only
  rw [if_neg hrows]
  exact setM_getM w u

/-- A segment with a credit and a place for each row of the slot takes them, and the slot is EMPTY (R211, R291). -/
theorem drainVector_empties_to_stream (hbank : tblWf tslot0 (bankOf (getM s u) (bits c.w 55 54 == 1)) = true)
    (hc : drainHalves (bits c.w 35 32) / 2 ≤ g.credits)
    (hroom : g.buf.length + drainHalves (bits c.w 35 32) / 2 ≤ 32) :
    arraySlot (getM (drainVector s u) u) (bits c.w 55 54 == 1) ((bits c.w 53 45 + c.done) % 512) = tslot0
      ∧ (getM (drainVector s u) u).drainQ = drainNext c rest
      ∧ ∃ g', findSeg (drainVector s u) p.val id = some g' ∧ g'.credits + drainHalves (bits c.w 35 32) / 2 = g.credits
        ∧ g'.buf.length = g.buf.length + drainHalves (bits c.w 35 32) / 2 := by
  obtain ⟨d, half, first, rows, hlen, hv⟩ := drainVector_to_stream w q hq hs ha hb hf hsent
  rw [← hlen] at hc hroom ⊢
  obtain ⟨hn, hmcores, g', hg', hcredits, hbuf⟩ := drainPush_of_room ho hg rows hc hroom
  have hm := getM_congr hmcores u
  obtain ⟨hd, hsegs⟩ := drainTaken_spec (s := (drainPush s u (bits c.w 30 28) rows).1) (hmcores ▸ w) (Nat.ne_of_lt hs) (hm ▸ q.1) (hm ▸ hq)
    (hm ▸ hbank) ((bits c.w 53 45 + c.done) % 512) d half first (rows.map (·.1))
  obtain ⟨hslot, hqueue⟩ := hd.stepArray
  dsimp only at hv
  rw [if_pos hn] at hv
  rw [hv]
  refine ⟨hslot, hqueue, g', ?_, hcredits, hbuf⟩
  show List.find? _ (drainTaken _ _ _ _ _ _ _ _ _).segs = _
  rw [hsegs]
  exact hg'

end

end Sys2Proof.Laws
end

section
/-! SUPPORT. The matrix-vector path and the drain, put together. -/

namespace Sys2Proof

open Sys2Proof.Machine Sys2Proof.Laws

/-- Settles O35: each event by its lemma; a bank of either number is in canonical form. -/
theorem matrixVectorWorkAndDrains : Obligations.MatrixVectorWorkAndDrains := by
  unfold Obligations.MatrixVectorWorkAndDrains
  intro s u c rest h
  have w := mcores_wf_of_loaded h
  refine ⟨fun q hq hl hj hc => ?_, fun j l hr hj hx => ?_, fun q hq hl => ?_, fun j l q hj hd => ?_, fun j l q hj hc hd he => ?_,
    fun q hq hs ha => ?_, fun q hq hs ha hb0 hb1 => ?_⟩
  · exact ⟨_, exec_mvmBegin h, mvmBegin_of_empty w q hq hl hj hc⟩
  · exact ⟨_, exec_chkcsTest h, fun k hk => chkcsTest_fills w hr hj hx hk⟩
  · rw [exec_mvmBegin h, mvmBegin_of_live w q hq hl]
  · rw [exec_chkcsTest h, chkcsTest_of_early w q hj hd]
  · refine ⟨_, exec_chkcsTest h, ?_⟩
    rw [chkcsTest_of_complete w q hj hc hd he]
    refine ⟨mvmTested_mvJobs _ j l _, fun hok => ?_, fun hok => ?_⟩
    · rw [show testPasses s u.val j = true from hok]
      exact ⟨rfl, rfl⟩
    · rw [show testPasses s u.val j = false from hok]
      exact ⟨fun k hk => mvmTested_of_failed _ j l hk, rfl⟩
  · rw [exec_drainVector h, drainVector_of_waiting w q hq hs ha]
  · have hbank : tblWf tslot0 (bankOf (getM s u.val) (bits c.w 55 54 == 1)) = true := by
      cases bits c.w 55 54 == 1
      · exact hb0
      · exact hb1
    refine ⟨fun hb => ⟨_, exec_drainVector h, drainVector_empties_to_rows w q hq hs ha hbank hb⟩,
      fun p id g hb hsent hf ho hg => ⟨fun hc hroom => ?_, fun hc => ?_⟩⟩
    · obtain ⟨hslot, hqueue, g', hg'⟩ := drainVector_empties_to_stream w q hq hs ha hb hf hsent ho hg hbank hc hroom
      exact ⟨_, g', exec_drainVector h, hslot, hqueue, hg'⟩
    · rw [exec_drainVector h, drainVector_of_no_credit w q hq hs ha hb hf hsent ho hg hc]

end Sys2Proof
end
